-- ==== Sys2Proof/Word.lean ====
section
/-! DEFINITION. The words of the PB-26: 16 data bits with two parity bits (R1), the 24-bit word address, and the
numbers of cameras, axes, lines and table entries. -/

namespace Sys2Proof

/-- A host or memory word address (00, Conventions: "a host address is a 24-bit word address"). -/
abbrev Addr := BitVec 24

/-- A word offset from the region base: the region is 64 Ki words (R150). -/
abbrev Offset := BitVec 16

/-- One word on the host bus or in memory: 16 data bits, and one odd-parity bit for each byte (R1). -/
structure MWord where
  /-- the 16 data bits -/
  data : BitVec 16
  /-- bit 0 for the low byte, bit 1 for the high byte (the order of the capture parity word, R172) -/
  par : BitVec 2
  deriving DecidableEq, Repr

/-- Camera numbers 0 to 7 (00, Conventions). -/
abbrev Cam := Fin 8

/-- Axis numbers 0 to 6: PAN, TILT, ZOOM, FOCUS, LIFT, FLOOR_X, FLOOR_Y (00, Conventions). -/
abbrev Axis := Fin 7

/-- The axis FLOOR_X (00, Conventions). -/
def floorX : Axis := 5

/-- The axis FLOOR_Y (00, Conventions). -/
def floorY : Axis := 6

/-- One signed count for each axis, in axis order; 0 in the place of an absent axis (R3). -/
abbrev Positions := Vector Int 7

/-- A 32 by 32 table, one entry for each floor cell (R101), rows in y and along each row in x. -/
abbrev Grid (α : Type) := Vector (Vector α 32) 32

/-- The grid of a function of the cell (x, y). -/
def gridOf {α : Type} (f : Fin 32 → Fin 32 → α) : Grid α :=
  Vector.ofFn fun y => Vector.ofFn fun x => f x y

/-- The entry of cell (x, y). -/
def gridAt {α : Type} (g : Grid α) (x y : Fin 32) : α := g[y][x]

end Sys2Proof
end

