-- ==== Sys2Proof/Syntax.lean ====
section
/-! DEFINITION. The commands of the PB-26: one constructor for each row of spec/opcode_table.json, with the operands of
the event it names (log 26: the table gives no fields). A host write carries the written word with its parity. The end
of an own read carries memory's answer: none where memory answers with the word it holds, some w where it answers
with w (log 5). -/

namespace Sys2Proof

/-- One command of the block. -/
inductive Instr where
  /-- RESETn is asserted (R40). `landed`: an own or host write at the port still reached memory (log 6). -/
  | resetAssert (landed : Bool)
  /-- RESETn is released with CFGBASE[1:0] reading `straps` (R150, R164). -/
  | resetRelease (straps : BitVec 2)
  /-- An own read of the load's first phase ends (R164). -/
  | startupReadEnd (answer : Option MWord)
  /-- A write of the load's second phase ends (R164). -/
  | startupWriteEnd
  /-- The host presents a read (R151). -/
  | hostRead (addr : Addr)
  /-- The host presents a write (R151). -/
  | hostWrite (addr : Addr) (w : MWord)
  /-- Memory answers the host access at the port with MRDY (R151). -/
  | hostAccessEnd (answer : Option MWord)
  /-- The memory timeout of the access at the port expires (R162). `landed`: memory completed the write all the same
  (log 6). -/
  | memoryTimeout (landed : Bool)
  /-- A host write to a refused region word at offset `off` (R152). -/
  | regionWriteRefused (off : Offset) (w : MWord)
  /-- A host write to the flags word (R165). -/
  | flagsWordWrite (w : MWord)
  /-- A host write to the mask word (R166). -/
  | maskWordWrite (w : MWord)
  /-- A host write to the capture clear word (R167). -/
  | captureClearWrite (w : MWord)
  /-- A host write to the missed-frame counter word (R129). -/
  | missedFrameCounterWrite (w : MWord)
  /-- A host write to the hit counter word of fence entry `n` (R155). -/
  | fenceHitCounterWrite (n : Fin 8) (w : MWord)
  /-- A host write to word `k` (BASE low, BASE high, MASK low, MASK high) of fence entry `n` (R153). -/
  | fenceBoundWrite (n : Fin 8) (k : Fin 4) (w : MWord)
  /-- A host write to the MODE word of fence entry `n` completes at memory (R153; log 7). -/
  | fenceModeWrite (n : Fin 8) (w : MWord)
  /-- A host write to the low half of the probe address pair (R157). -/
  | probeLowHalfWrite (w : MWord)
  /-- A host write to the high half of the probe address pair (R156). -/
  | probeHighHalfWrite (w : MWord)
  /-- A host write to the low half of the direct slot of axis `a` of camera `c` (R138). -/
  | directSlotLowHalfWrite (c : Cam) (a : Axis) (w : MWord)
  /-- A host write to the high half of the direct slot of axis `a` of camera `c` (R138). -/
  | directSlotHighHalfWrite (c : Cam) (a : Axis) (w : MWord)
  /-- A host write to word 58 + `k` of camera `c`'s frame, the FLOOR_X and FLOOR_Y slots (R139). -/
  | floorSlotWriteRefused (c : Cam) (k : Fin 4) (w : MWord)
  /-- A host write to word `k` of words 0 to 32 of camera `c`'s setpoint frame (R137). -/
  | setpointFrameWriteRefused (c : Cam) (k : Fin 33) (w : MWord)
  /-- A host write to word `k` of camera `c`'s config block (R15). -/
  | configBlockWrite (c : Cam) (k : Fin 128) (w : MWord)
  /-- A host write to word `k` of the shot store, at offset 0x4000 + k (R91, R95). -/
  | shotStoreWrite (k : BitVec 14) (w : MWord)
  /-- A host write to bound word `k` (X0, Y0, X1, Y1) of zone entry `z` (R113). -/
  | zoneBoundWrite (z : Fin 16) (k : Fin 4) (w : MWord)
  /-- A host write to the ENABLE word of zone entry `z` with bit 0 set completes at memory (R114; log 7).
  `rest` is bits 15..1 of the word. -/
  | zoneApply (z : Fin 16) (rest : BitVec 15) (par : BitVec 2)
  /-- A host write to the ENABLE word of zone entry `z` with bit 0 clear completes at memory (R116; log 7). -/
  | zoneRemove (z : Fin 16) (rest : BitVec 15) (par : BitVec 2)
  /-- A host write to word 1 + `k` (ARG, DURATION, RAMP, LEVEL/FLAGS) of camera `c`'s mailbox (R65). -/
  | mailboxLatchWrite (c : Cam) (k : Fin 4) (w : MWord)
  /-- A write of COMMAND with kind GOTO completes at memory (R66, R71; log 7). `tag` is bits 15..8, `spare` the
  ignored bits 7..4, `par` the word's parity bits; the same in every post below. -/
  | goto (c : Cam) (tag : BitVec 8) (spare : BitVec 4) (par : BitVec 2)
  /-- A post of RETURN (R71). -/
  | ret (c : Cam) (tag : BitVec 8) (spare : BitVec 4) (par : BitVec 2)
  /-- A post of HALT (R76). -/
  | halt (c : Cam) (tag : BitVec 8) (spare : BitVec 4) (par : BitVec 2)
  /-- A post of RESUME (R77). -/
  | resume (c : Cam) (tag : BitVec 8) (spare : BitVec 4) (par : BitVec 2)
  /-- A post of ABANDON (R78). -/
  | abandon (c : Cam) (tag : BitVec 8) (spare : BitVec 4) (par : BitVec 2)
  /-- A post of OVERRIDE (R79). -/
  | override (c : Cam) (tag : BitVec 8) (spare : BitVec 4) (par : BitVec 2)
  /-- A post of FLUSH (R80). -/
  | flush (c : Cam) (tag : BitVec 8) (spare : BitVec 4) (par : BitVec 2)
  /-- A post of CAPTURE (R81). -/
  | capture (c : Cam) (tag : BitVec 8) (spare : BitVec 4) (par : BitVec 2)
  /-- A post of DIRECT (R62). -/
  | direct (c : Cam) (tag : BitVec 8) (spare : BitVec 4) (par : BitVec 2)
  /-- A post of RELEASE (R63). -/
  | release (c : Cam) (tag : BitVec 8) (spare : BitVec 4) (par : BitVec 2)
  /-- A post of ENABLE (R43). -/
  | enable (c : Cam) (tag : BitVec 8) (spare : BitVec 4) (par : BitVec 2)
  /-- A post of DISABLE (R64). -/
  | disable (c : Cam) (tag : BitVec 8) (spare : BitVec 4) (par : BitVec 2)
  /-- A post whose kind code `k` is 0, 13, 14 or 15 (R69). -/
  | postUnknownKind (c : Cam) (tag : BitVec 8) (spare : BitVec 4) (k : BitVec 4) (par : BitVec 2)
  /-- An own read of an adoption ends (R44). -/
  | adoptionReadEnd (answer : Option MWord)
  /-- An own read of a shot fetch ends (R90). -/
  | fetchReadEnd (answer : Option MWord)
  /-- An own write of a capture ends (R94). -/
  | captureWriteEnd
  /-- An own write of a frame write-out ends (R134). -/
  | writeOutWriteEnd
  /-- An own write of a direct slot fill ends (R140). -/
  | directFillWriteEnd
  /-- An own write of the Status Writer ends (R168). -/
  | statusWriteEnd
  /-- The interval timer expires (R122, R125). -/
  | intervalTimerExpiry
  /-- An edge of REF, falling or rising, at `t` microseconds after the end of the load (R121; log 13). -/
  | refEdge (falling : Bool) (t : Nat)
  /-- The wait count of camera `c` reaches its floor wait limit (R109; log 11). -/
  | floorTimeout (c : Cam)
  /-- The tick count reaches the status interval (R170; log 12). -/
  | statusInterval
  /-- Tally line `n` changes to the level `high` (R144). -/
  | tallyEvent (n : Fin 8) (high : Bool)
  /-- STOPn goes low (R146). -/
  | stopAssert
  /-- STOPn goes high (R147). -/
  | stopRelease
  deriving DecidableEq, Repr

end Sys2Proof
end

