-- ==== Sys2Proof/Config.lean ====
section
/-! DEFINITION. What the manual leaves open: the free value of the arbiter, and what memory holds before anything is
written. -/

namespace Sys2Proof.Config

/-- Which of the requests that reach a FREE port together is granted. R161: "Two requests that reach a free port
together are taken in either order". A free value with no body: the n-th such choice picks entry
`arbiterPick n % length` of the list of requests (log 10). -/
opaque arbiterPick : Nat → Nat

/-- What a word of memory reads as before anything is written to it: 0x0000 with good parity, both parity bits 1.
DESIGN CHOICE, unsafe (log 2): the spec does not say what the RAM holds after power-on. -/
def blankWord : MWord := ⟨0, 3⟩

end Sys2Proof.Config
end

