-- ==== Sys2Proof/Machine/State.lean ====
section
/-! DEFINITION. The state of the PB-26, block by block (00, block overview), as plain data, and the state right after
RESETn is asserted. INVENTORY.md lists every field with its rule and its reset value. -/

namespace Sys2Proof.Machine

/-- No command of the PB-26 stops the machine: bus errors, refusals of cues and captured errors are effects on State.
The type has no constructor. -/
inductive Fault where
  deriving DecidableEq, Repr

/-- Why a command has no meaning. -/
inductive Refusal where
  /-- raised by an arm of exec whose command has no meaning yet; safe. No arm raises it. -/
  | notModelled (mnemonic : String)
  deriving DecidableEq, Repr

/-- The nine camera states (R40). -/
inductive CamState where
  | offline | adopting | idle | fetching | waiting | moving | halting | halted | direct
  deriving DecidableEq, Repr

/-- The camera kinds (R2). -/
inductive Kind where
  | head | pedestal | roaming
  deriving DecidableEq, Repr

/-- The kinds of the move cues (R70). -/
inductive MoveKind where
  | goto | ret
  deriving DecidableEq, Repr

/-- A queue entry, and the active cue: a copy of the cue taken at its post (R72, R73). -/
structure Cue where
  tag : BitVec 8
  kind : MoveKind
  arg : BitVec 16
  duration : BitVec 16
  ramp : BitVec 16
  level : BitVec 2
  push : Bool
  onAir : Bool
  deriving DecidableEq, Repr

/-- A mailbox latch: a value and its parity mark (R65). -/
structure Latch where
  value : BitVec 16
  good : Bool
  deriving DecidableEq, Repr

/-- The result codes of R84, and `none` for "none has been recorded since reset" (R83). -/
inductive Code where
  | none | done | doneClamped | noTravel | doneOverlap | abandoned
  | badKind | badArg | queueFull | wrongState | cueParity | busy | stopActive | shotEmpty | shotUnstable
  | readParity | memTimeout | stackEmpty | tooLong | keepOut | floorTimeout | configInvalid | outOfLimits
  | floorConflict
  deriving DecidableEq, Repr

/-- The result group of a status record (R83). `kind` is the kind field of the COMMAND word as posted (R171). -/
structure ResultGroup where
  tag : BitVec 8
  kind : BitVec 4
  code : Code
  detail : BitVec 16
  deriving DecidableEq, Repr

/-- A rectangle of cells, both bounds included (R102). -/
structure Rect where
  x0 : Nat
  y0 : Nat
  x1 : Nat
  y1 : Nat
  deriving DecidableEq, Repr

/-- The applied limits and speeds of one axis (R6, R7). -/
structure AxisConfig where
  min : Int
  max : Int
  voff : Nat
  von : Nat
  deriving DecidableEq, Repr

/-- The applied config of a camera (R4). -/
structure CamConfig where
  kind : Option Kind
  mask : BitVec 7
  axes : Vector AxisConfig 7
  tally : Option (Fin 8)
  slew : Nat
  margin : Int
  floorLimit : Nat
  ramp : Nat
  deriving DecidableEq, Repr

/-- The empty applied config: no kind, an empty mask, tally line NONE, 0 in every other field (R4). -/
def emptyConfig : CamConfig :=
  { kind := none, mask := 0, axes := Vector.replicate 7 ⟨0, 0, 0, 0⟩, tally := none, slew := 0, margin := 0,
    floorLimit := 0, ramp := 0 }

/-- The plan record (R16). -/
structure Plan where
  origin : Positions
  target : Positions
  /-- the travel of each axis -/
  delta : Positions
  /-- the detail mask -/
  detail : BitVec 7
  /-- the ON_AIR flag of the cue that was planned -/
  onAir : Bool
  /-- the duration N in frames -/
  n : Nat
  /-- the ramp R in frames -/
  r : Nat
  /-- N' = 256 N -/
  n' : Nat
  /-- R' = 256 R -/
  r' : Nat
  /-- the denominator K -/
  k : Nat
  /-- the tally cap C -/
  c : Nat
  deriving DecidableEq, Repr

/-- The plan record after RESETn and at each successful ENABLE (R16). -/
def emptyPlan : Plan :=
  { origin := Vector.replicate 7 0, target := Vector.replicate 7 0, delta := Vector.replicate 7 0, detail := 0,
    onAir := false, n := 0, r := 0, n' := 0, r' := 0, k := 0, c := 0 }

/-- An adoption that is running (R43 to R45). -/
structure Adoption where
  /-- the tag of its ENABLE -/
  tag : BitVec 8
  /-- the words read so far, in the order of R44, none for a word that was not taken: the pending copy (R4) -/
  taken : List (Option (BitVec 16))
  /-- a parity fault was noted -/
  fault : Bool
  /-- an assertion of the stop line was recorded (R45, R47) -/
  stopSeen : Bool
  deriving DecidableEq, Repr

/-- The two banks of a setpoint frame (R131). -/
inductive Bank where
  | a | b
  deriving DecidableEq, Repr

/-- Everything kept for one camera. -/
structure Camera where
  /-- the camera state (R40) -/
  state : CamState
  /-- the halt mark (R41) -/
  halt : Bool
  /-- the abandon mark (R41) -/
  abandon : Bool
  /-- STOP among the wait reasons (R42) -/
  waitStop : Bool
  /-- TALLY among the wait reasons (R42) -/
  waitTally : Bool
  /-- FLOOR among the wait reasons (R42) -/
  waitFloor : Bool
  /-- the on-air state (R145) -/
  onAir : Bool
  /-- the stop latch (R148) -/
  stopLatch : Bool
  /-- CONFIG_STALE (R15) -/
  stale : Bool
  /-- the applied config (R4) -/
  cfg : CamConfig
  /-- the adoption while it runs (R44) -/
  adoption : Option Adoption
  /-- the plan record (R16) -/
  plan : Plan
  /-- progress P (R26) -/
  p : Nat
  /-- rate (R30) -/
  rate : Nat
  /-- rate target RT (R32) -/
  rt : Nat
  /-- reported progress Q (R28) -/
  q : Nat
  /-- the override (R31) -/
  override : Nat
  /-- the current setpoints (R16) -/
  setpoints : Positions
  /-- the direct targets, none outside DIRECT (R62, R63) -/
  direct : Option Positions
  /-- the queue, head first (R72) -/
  queue : List Cue
  /-- the active cue (R73) -/
  active : Option Cue
  /-- the return stack, top first (R96) -/
  stack : List Positions
  /-- the latches of mailbox words 1 to 4 (R65) -/
  latches : Vector Latch 4
  /-- the result group (R83) -/
  result : ResultGroup
  /-- the result count (R83) -/
  resultCount : BitVec 16
  /-- the blocked-write count, 0 to 255 (R137) -/
  blocked : Nat
  /-- the held rectangle (R103) -/
  held : Option Rect
  /-- the claim rectangle kept with the plan (R104) -/
  claim : Option Rect
  /-- the wait count, 0 to 65535 (R109) -/
  waitCount : Nat
  /-- the Setpoint Writer's active bank (R132) -/
  activeBank : Bank
  deriving DecidableEq, Repr

/-- A camera after RESETn (R16, R31, R40, R65, R83, R103, R132, R137). -/
def resetCamera : Camera :=
  { state := .offline, halt := false, abandon := false, waitStop := false, waitTally := false, waitFloor := false,
    onAir := false, stopLatch := false, stale := false, cfg := emptyConfig, adoption := none, plan := emptyPlan,
    p := 0, rate := 0, rt := 0, q := 0, override := 256, setpoints := Vector.replicate 7 0, direct := none,
    queue := [], active := none, stack := [], latches := Vector.replicate 4 ⟨0, true⟩,
    result := ⟨0, 0, .none, 0⟩, resultCount := 0, blocked := 0, held := none, claim := none, waitCount := 0,
    activeBank := .b }

/-- The state of one floor cell (R101). -/
inductive Cell where
  | free | blocked | held (c : Cam)
  deriving DecidableEq, Repr

/-- The status of a zone entry (R113). -/
inductive ZoneStatus where
  | inactive | active | refusedHeld
  deriving DecidableEq, Repr

/-- The Floor Map's copy of one zone entry (R113). -/
structure Zone where
  /-- the latched bounds X0, Y0, X1, Y1, each 0..31 -/
  bounds : Vector Nat 4
  status : ZoneStatus
  /-- the applied rectangle, while the entry is ACTIVE -/
  applied : Option Rect
  deriving DecidableEq, Repr

/-- The Floor Map (R99, R101, R113). The held rectangles, claims and wait counts stand in Camera. -/
structure FloorMap where
  /-- the floor origin OX, as the pair of settings words -/
  ox : BitVec 32
  /-- the floor origin OY -/
  oy : BitVec 32
  /-- the cell shift s -/
  shift : Nat
  cells : Grid Cell
  zones : Vector Zone 16
  deriving DecidableEq, Repr

/-- The modes of a fence entry; the codes 2 and 3 are both FULL_GUARD (R153). -/
inductive FenceMode where
  | off | writeGuard | fullGuard
  deriving DecidableEq, Repr

/-- The Interposer's copy of one fence entry, with its hit counter (R153, R155). -/
structure Fence where
  base : BitVec 24
  mask : BitVec 24
  mode : FenceMode
  /-- the hit counter, 0 to 255 -/
  hits : Nat
  deriving DecidableEq, Repr

/-- What the owner of a watched word does when the host's write of it ends at memory (R66, R114, R153). -/
inductive OnEnd where
  | nothing
  | post (c : Cam)
  | zoneEnable (z : Fin 16)
  | fenceMode (n : Fin 8)
  deriving DecidableEq, Repr

/-- The items the Status Writer writes (R168). -/
inductive StatusItem where
  | flags | capture | lineState | syncGroup | missed | hits (n : Fin 8) | probe | zone (z : Fin 16)
  | record (c : Cam) | cell (x y : Fin 32)
  deriving DecidableEq, Repr

/-- Whose access holds the port (R161). -/
inductive Owner where
  /-- a host access; `phantom` for a held low half forwarded by an interruption, which has no host access to end
  (R158) -/
  | host (onEnd : OnEnd) (phantom : Bool)
  /-- read n of the load's first phase (R164) -/
  | startupRead (n : Nat)
  /-- write n of the load's second phase (R164) -/
  | startupWrite (n : Nat)
  /-- a read of camera c's adoption (R44) -/
  | adoption (c : Cam)
  /-- a read of a shot fetch (R90) -/
  | fetch
  /-- a write of a capture (R94) -/
  | capture
  /-- a write of camera c's write-out that fills `bank`; `control` for its control word (R134) -/
  | writeOut (c : Cam) (bank : Bank) (control : Bool)
  /-- a write of camera c's direct slot fill (R140) -/
  | fill (c : Cam)
  /-- a write of the Status Writer (R168) -/
  | status (item : StatusItem)
  deriving DecidableEq, Repr

/-- One access granted the port, or a host access waiting for it (R161). -/
structure Access where
  owner : Owner
  addr : Addr
  /-- the word written, none for a read -/
  write : Option MWord
  /-- the second word of a pair, written at the next address under the same grant (R157, R140) -/
  second : Option MWord
  /-- the operation the access belongs to still wants it; cleared when that operation is discarded -/
  live : Bool
  deriving DecidableEq, Repr

/-- The Memory Port Arbiter (R161, R162). -/
structure Port where
  /-- the access that holds the port, none while it is free -/
  cur : Option Access
  /-- the owner of the last grant was OWN -/
  lastOwn : Bool
  /-- the memory timeout in microseconds -/
  timeout : Nat
  /-- the MODEL's own: how often requests have reached a free port together, the argument of Config.arbiterPick -/
  picks : Nat
  deriving DecidableEq, Repr

/-- An access the host presents: a read, or a write of a word (R151). -/
structure HostAccess where
  addr : Addr
  write : Option MWord
  deriving DecidableEq, Repr

/-- The staged pairs (R157). -/
inductive StagedPair where
  | probe
  | slot (c : Cam) (a : Axis)
  deriving DecidableEq, Repr

/-- The pair staging latch while it holds a low half (R157). -/
structure Staged where
  pair : StagedPair
  addr : Addr
  word : MWord
  deriving DecidableEq, Repr

/-- How a host access ended: HBERRn (`berr`) or HRDY, and the word a read returned or a write carried (R151). -/
structure HostEnd where
  addr : Addr
  isWrite : Bool
  berr : Bool
  word : MWord
  deriving DecidableEq, Repr

/-- The host side of the Bus Interposer (R151, R157, R158). -/
structure HostBus where
  /-- accesses presented and not yet decoded, oldest first -/
  queue : List HostAccess
  /-- the interrupting access, withheld from its class until the forwarded low half is written -/
  held : Option HostAccess
  /-- the forwarded access waiting at the arbiter -/
  req : Option Access
  /-- the pair staging latch -/
  staging : Option Staged
  /-- how the last host access ended -/
  ended : Option HostEnd
  deriving DecidableEq, Repr

/-- The levels standing on the input lines. -/
structure Pins where
  /-- TALLY[7:0], true for high -/
  tally : Vector Bool 8
  /-- STOPn is low -/
  stopLow : Bool
  deriving DecidableEq, Repr

/-- The Frame Timer's mode (R119). -/
inductive TimerMode where
  | internal | house
  deriving DecidableEq, Repr

/-- The sync states (07, 7.3). -/
inductive SyncState where
  | free | seeking | locked | holdover
  deriving DecidableEq, Repr

/-- The Frame Timer (07). Times are microseconds after the end of the load (log 13). -/
structure FrameTimer where
  mode : TimerMode
  /-- Tint -/
  tint : Nat
  /-- D -/
  divider : Nat
  /-- the falling edge of REF is selected -/
  falling : Bool
  sync : SyncState
  /-- the next expiry of the interval timer, none while none is pending -/
  nextExpiry : Option Nat
  divCount : Nat
  /-- the time of the last divided REF point -/
  lastPoint : Option Nat
  qualify : Nat
  /-- the time of the last tick -/
  lastTick : Nat
  /-- the frame counter -/
  frame : BitVec 32
  /-- the missed-frame counter, 0 to 255 -/
  missed : Nat
  deriving DecidableEq, Repr

/-- The Line Monitor (R142, R143); the stop latches stand in Camera. -/
structure LineMonitor where
  /-- bit n set: line n is active low -/
  polarity : BitVec 8
  /-- bits 2n+1..2n: the edge report of line n -/
  edges : BitVec 16
  /-- the on-air level of each tally line -/
  onAir : Vector Bool 8
  /-- the stop line is asserted -/
  stop : Bool
  deriving DecidableEq, Repr

/-- What a request asks of the Shot Engine (R87). -/
inductive Work where
  | fetch
  | capture (values : Positions) (mask : BitVec 7) (duration ramp : BitVec 16)
  deriving DecidableEq, Repr

/-- One entry of the request FIFO (R87). -/
structure ShotReq where
  cam : Cam
  shot : Nat
  tag : BitVec 8
  work : Work
  deriving DecidableEq, Repr

/-- The Shot Engine's operation in flight (R87). -/
structure ShotOp where
  req : ShotReq
  /-- the words this attempt has read, in order -/
  words : List (BitVec 16)
  /-- how many words the capture has written -/
  written : Nat
  /-- the attempt, 1 to 4 -/
  attempt : Nat
  /-- the capture's overlap mark -/
  overlap : Bool
  deriving DecidableEq, Repr

/-- The Shot Engine (R87). -/
structure ShotEngine where
  fifo : List ShotReq
  op : Option ShotOp
  /-- the MODEL's own: fetch requests of the event in progress, which join the FIFO in camera order at its end; empty
  between events -/
  arrivals : List ShotReq
  deriving DecidableEq, Repr

/-- An unfinished write-out (R133, R134). -/
structure WriteOut where
  cam : Cam
  /-- the bank it fills -/
  bank : Bank
  frame : BitVec 32
  values : Positions
  /-- how many of its seventeen words have been granted the port -/
  granted : Nat
  deriving DecidableEq, Repr

/-- A direct slot fill: the axes whose pairs are still to be written (R140). -/
structure Fill where
  cam : Cam
  axes : List Axis
  deriving DecidableEq, Repr

/-- The Setpoint Writer (R132); the active banks stand in Camera. -/
structure SetpointWriter where
  /-- the unfinished write-outs, in the order they are made -/
  writeOuts : List WriteOut
  fills : List Fill
  /-- the rotation pointer -/
  pointer : Fin 8
  deriving DecidableEq, Repr

/-- The classes of the error capture record (R167). -/
inductive ErrClass where
  | empty | passParity | ownParity | memTimeout
  deriving DecidableEq, Repr

/-- The error capture record (R167). -/
structure ErrorRecord where
  cls : ErrClass
  /-- the side is OWN -/
  own : Bool
  addr : Addr
  word : MWord
  deriving DecidableEq, Repr

/-- The empty record: every word of it is written 0 (R164; log 23). -/
def emptyError : ErrorRecord := ⟨.empty, false, 0, ⟨0, 0⟩⟩

/-- The Status Writer (11). -/
structure StatusWriter where
  /-- the twelve device flags, at the bits of 12.2 -/
  flags : BitVec 12
  /-- the interrupt mask -/
  mask : BitVec 12
  capture : ErrorRecord
  /-- the probe result to be written (R156) -/
  probe : BitVec 16
  flagsDue : Bool
  captureDue : Bool
  lineDue : Bool
  syncDue : Bool
  missedDue : Bool
  hitsDue : Vector Bool 8
  probeDue : Bool
  zoneDue : Vector Bool 16
  recordDue : Vector Bool 8
  cellDue : Grid Bool
  /-- the words of the group in progress still to be written (R168) -/
  rest : List (Addr × BitVec 16)
  /-- the item in progress, none while nothing of a group is left -/
  item : Option StatusItem
  /-- the sequence number of each record (R170) -/
  seq : Vector (BitVec 16) 8
  /-- the status interval in frames (R170) -/
  interval : Nat
  /-- the ticks counted toward it -/
  count : Nat
  deriving DecidableEq, Repr

/-- Where the part stands with the start-up load (R164). -/
inductive Startup where
  /-- RESETn is asserted -/
  | inReset
  /-- the first phase; read n is the next to end -/
  | reading (n : Nat)
  /-- the second phase; write n is the next to end -/
  | writing (n : Nat)
  /-- the load has ended -/
  | running
  deriving DecidableEq, Repr

/-- The state of the PB-26 and of the memory it is in series with. -/
structure State where
  /-- the MODEL's own: the commands waiting, first in first out -/
  pending : List Instr
  startup : Startup
  /-- the words of the fence or zone entry the load is reading -/
  loadEntry : List MWord
  /-- the region base straps as sampled (R150) -/
  base : BitVec 2
  /-- the shared memory: address and word, addresses rising, nothing listed that equals what an unlisted word reads -/
  mem : List (Nat × MWord)
  pins : Pins
  bus : HostBus
  fences : Vector Fence 8
  port : Port
  timer : FrameTimer
  lines : LineMonitor
  cams : Vector Camera 8
  floor : FloorMap
  shot : ShotEngine
  setp : SetpointWriter
  /-- the cameras ADOPTING, in the order their ENABLEs were accepted (R44) -/
  adoptQueue : List Cam
  stat : StatusWriter
  deriving DecidableEq, Repr

/-- The machine right after RESETn is asserted, before its release starts the load (R40, R120, R132, R143, R153, R161,
R164, R168 and the other rules INVENTORY.md names). Memory lists nothing (log 2); the pins, the straps and the time of
the last tick have no reset value in the spec (log 14). -/
def State.reset : State :=
  { pending := []
    startup := .inReset
    loadEntry := []
    base := 0
    mem := []
    pins := { tally := Vector.replicate 8 false, stopLow := false }
    bus := { queue := [], held := none, req := none, staging := none, ended := none }
    fences := Vector.replicate 8 { base := 0, mask := 0, mode := .off, hits := 0 }
    port := { cur := none, lastOwn := false, timeout := 16, picks := 0 }
    timer :=
      { mode := .internal, tint := 2000, divider := 1, falling := false, sync := .free, nextExpiry := none,
        divCount := 0, lastPoint := none, qualify := 0, lastTick := 0, frame := 0, missed := 0 }
    lines := { polarity := 0, edges := 0, onAir := Vector.replicate 8 false, stop := false }
    cams := Vector.replicate 8 resetCamera
    floor :=
      { ox := 0, oy := 0, shift := 12, cells := Vector.replicate 32 (Vector.replicate 32 .free),
        zones := Vector.replicate 16 { bounds := Vector.replicate 4 0, status := .inactive, applied := none } }
    shot := { fifo := [], op := none, arrivals := [] }
    setp := { writeOuts := [], fills := [], pointer := 0 }
    adoptQueue := []
    stat :=
      { flags := 0, mask := 0xFFF, capture := emptyError, probe := 0, flagsDue := true, captureDue := true,
        lineDue := true, syncDue := true, missedDue := true, hitsDue := Vector.replicate 8 true, probeDue := true,
        zoneDue := Vector.replicate 16 true, recordDue := Vector.replicate 8 true,
        cellDue := Vector.replicate 32 (Vector.replicate 32 true), rest := [], item := none,
        seq := Vector.replicate 8 0, interval := 10, count := 0 } }

end Sys2Proof.Machine
end

