-- ==== Sys2Proof/Machine/Operands.lean ====
section
/-! DEFINITION. The operand forms: odd parity (R1), pairs and their halves (R1), clamping (00, Ranges), the fields of a
posted cue (R67), the values a config block, a setting, a fence and a zone word are taken as (R5 to R13, R99, R119,
R142, R153, R162, R170), and the codes of 12.2 (R171). -/

namespace Sys2Proof.Machine

/-! Parity (R1, R160) -/

/-- The parity bit that gives a byte and its parity bit together an odd number of ones (R1). -/
def parityBit (b : BitVec 8) : Bool :=
  !(b[0] ^^ b[1] ^^ b[2] ^^ b[3] ^^ b[4] ^^ b[5] ^^ b[6] ^^ b[7])

/-- The two good parity bits of a word: bit 0 for the low byte, bit 1 for the high byte. -/
def goodParity (d : BitVec 16) : BitVec 2 :=
  BitVec.ofBool (parityBit (d.extractLsb' 8 8)) ++ BitVec.ofBool (parityBit (d.extractLsb' 0 8))

/-- Both bytes pass the odd-parity test (R1: "bad parity when either byte fails this test"). -/
def wordOk (w : MWord) : Bool := w.par == goodParity w.data

/-- A word with freshly computed good parity (R160). -/
def goodWord (d : BitVec 16) : MWord := ⟨d, goodParity d⟩

/-- A poisoned word: both of its parity bits inverted (R160). -/
def poisonWord (d : BitVec 16) : MWord := ⟨d, ~~~goodParity d⟩

/-- The word the part puts in place of an altered host word: good, or poisoned when a host word that went into it was
bad (R160). -/
def alteredWord (good : Bool) (d : BitVec 16) : MWord := if good then goodWord d else poisonWord d

/-! Pairs (R1) -/

/-- The signed 32-bit count of a pair. -/
def pairInt (lo hi : BitVec 16) : Int := (hi ++ lo : BitVec 32).toInt

/-- The low half of a count's pair. -/
def lowHalf (v : Int) : BitVec 16 := (BitVec.ofInt 32 v).extractLsb' 0 16

/-- The high half of a count's pair. -/
def highHalf (v : Int) : BitVec 16 := (BitVec.ofInt 32 v).extractLsb' 16 16

/-! Clamping (00, Ranges) -/

/-- A value below the range becomes its lower end, a value above it its upper end. -/
def clampInt (lo hi v : Int) : Int := if v < lo then lo else if hi < v then hi else v

/-- The same for unsigned values. -/
def clampNat (lo hi v : Nat) : Nat := if v < lo then lo else if hi < v then hi else v

/-! Axis masks -/

/-- The axis is in the mask: axis a at bit a (00, Conventions). -/
def inMask (m : BitVec 7) (a : Axis) : Bool := m.getLsbD a.val

/-- The axes of a mask, in axis order. -/
def maskAxes (m : BitVec 7) : List Axis := (List.finRange 7).filter (inMask m)

/-- The mask of the axes with a property. -/
def maskOf (f : Axis → Bool) : BitVec 7 :=
  (List.finRange 7).foldl (fun m a => if f a then m ||| (1#7 <<< a.val) else m) 0

/-- One count for each axis, from a function. -/
def positionsOf (f : Axis → Int) : Positions := Vector.ofFn f

/-! The cue words (R67) -/

/-- The kind code: COMMAND bits 3..0. -/
def commandKind (d : BitVec 16) : BitVec 4 := d.extractLsb' 0 4

/-- The tag: COMMAND bits 15..8. -/
def commandTag (d : BitVec 16) : BitVec 8 := d.extractLsb' 8 8

/-- A COMMAND word of a tag, the ignored bits 7..4 and a kind code. -/
def commandWord (tag : BitVec 8) (spare kind : BitVec 4) (par : BitVec 2) : MWord := ⟨tag ++ (spare ++ kind), par⟩

/-- A level: LEVEL/FLAGS bits 1..0. -/
def flagsLevel (d : BitVec 16) : BitVec 2 := d.extractLsb' 0 2

/-- PUSH: LEVEL/FLAGS bit 4. -/
def flagsPush (d : BitVec 16) : Bool := d[4]

/-- ON_AIR: LEVEL/FLAGS bit 5. -/
def flagsOnAir (d : BitVec 16) : Bool := d[5]

/-- CUT: LEVEL/FLAGS bit 6. -/
def flagsCut (d : BitVec 16) : Bool := d[6]

/-- The move cue a post makes from its tag and the four latches (R72). -/
def moveCue (kind : MoveKind) (tag : BitVec 8) (l : Vector Latch 4) : Cue :=
  { tag := tag, kind := kind, arg := l[0].value, duration := l[1].value, ramp := l[2].value,
    level := flagsLevel l[3].value, push := flagsPush l[3].value, onAir := flagsOnAir l[3].value }

/-! Config words (R2, R5 to R13) -/

/-- The kind a kind word names; none is an unknown kind (R2). -/
def kindOf (d : BitVec 16) : Option Kind :=
  if d = 1 then some .head else if d = 2 then some .pedestal else if d = 3 then some .roaming else none

/-- The axes a kind allows (R2). -/
def kindAxes : Kind → BitVec 7
  | .head => 0x0F
  | .pedestal => 0x1F
  | .roaming => 0x7F

/-- The applied axis mask formed from the kind word and the axis mask word (R5). -/
def formedMask (kind mask : BitVec 16) : BitVec 7 :=
  match kindOf kind with
  | some k => kindAxes k &&& mask.extractLsb' 0 7
  | none => 0

/-- The tally line field: 0 to 7 name a line, any other value is NONE (R9). -/
def tallyOf (d : BitVec 16) : Option (Fin 8) := if h : d.toNat < 8 then some ⟨d.toNat, h⟩ else none

/-- The slew step: 0 is taken as 1, above 256 as 256 (R10). -/
def slewOf (d : BitVec 16) : Nat := clampNat 1 256 d.toNat

/-- The footprint margin, clamped to 0..16,777,216 (R11). -/
def marginOf (v : Int) : Int := clampInt 0 16777216 v

/-- The default ramp: above 32,767 is taken as 32,767 (R13). -/
def rampOf (d : BitVec 16) : Nat := clampNat 0 32767 d.toNat

/-- A soft limit, clamped to -1,073,741,824..+1,073,741,823 (R6). -/
def limitOf (v : Int) : Int := clampInt (-1073741824) 1073741823 v

/-- A speed, clamped to 0..1,048,575 (R7). -/
def speedOf (v : Int) : Nat := (clampInt 0 1048575 v).toNat

/-- The applied limits and speeds of an axis from its four pairs; Von is clamped down to the applied Voff (R6, R7). -/
def axisConfigOf (min max voff von : Int) : AxisConfig :=
  { min := limitOf min, max := limitOf max, voff := speedOf voff, von := Nat.min (speedOf von) (speedOf voff) }

/-! Settings, fence and zone words (R99, R119, R153, R113, R162, R170) -/

/-- The fence mode a MODE word names: bits 1..0, with 2 and 3 both FULL_GUARD (R153). -/
def fenceModeOf (d : BitVec 16) : FenceMode :=
  if d.extractLsb' 0 2 = 0 then .off else if d.extractLsb' 0 2 = 1 then .writeGuard else .fullGuard

/-- Bits 23..0 of a fence or probe pair (R153, R156). -/
def pairAddr (lo hi : BitVec 16) : BitVec 24 := hi.extractLsb' 0 8 ++ lo

/-- A zone bound word: signed, clamped to 0..31 (R113). -/
def zoneBoundOf (d : BitVec 16) : Nat := (clampInt 0 31 d.toInt).toNat

/-! Codes (12.2) -/

/-- The camera state codes (R171). -/
def camStateCode : CamState → BitVec 16
  | .offline => 0 | .adopting => 1 | .idle => 2 | .fetching => 3 | .waiting => 4 | .moving => 5 | .halting => 6
  | .halted => 7 | .direct => 8

/-- The move cue kind codes (R70). -/
def moveKindCode : MoveKind → BitVec 4
  | .goto => 1 | .ret => 2

/-- The result codes (R171). -/
def codeValue : Code → BitVec 16
  | .none => 0 | .done => 1 | .doneClamped => 2 | .noTravel => 3 | .doneOverlap => 4 | .abandoned => 5
  | .badKind => 16 | .badArg => 17 | .queueFull => 18 | .wrongState => 19 | .cueParity => 20 | .busy => 21
  | .stopActive => 22 | .shotEmpty => 23 | .shotUnstable => 24 | .readParity => 25 | .memTimeout => 26
  | .stackEmpty => 27 | .tooLong => 28 | .keepOut => 29 | .floorTimeout => 30 | .configInvalid => 31
  | .outOfLimits => 32 | .floorConflict => 33

/-- A result from BAD_KIND onward is a refusal (R84, R85, R171: "Every value of 16 or more"). -/
def isRefusal (c : Code) : Bool := decide (16 ≤ (codeValue c).toNat)

/-- The sync state codes (R171). -/
def syncCode : SyncState → BitVec 16
  | .free => 0 | .seeking => 1 | .locked => 2 | .holdover => 3

/-- The capture class codes (R171). -/
def errCode : ErrClass → BitVec 16
  | .empty => 0 | .passParity => 1 | .ownParity => 2 | .memTimeout => 3

/-- The zone status codes (R171). -/
def zoneCode : ZoneStatus → BitVec 16
  | .inactive => 0 | .active => 1 | .refusedHeld => 2

/-- The floor image word of a cell (R118). -/
def cellCode : Cell → BitVec 16
  | .free => 0
  | .held c => BitVec.ofNat 16 (c.val + 1)
  | .blocked => 0xFF

/-- A set of true bits as a word, bit n for entry n. -/
def boolBits {n : Nat} (f : Fin n → Bool) : BitVec 16 :=
  (List.finRange n).foldl (fun m i => if f i then m ||| (1#16 <<< i.val) else m) 0

/-! Camera states -/

/-- The enabled states, IDLE to DIRECT (03). -/
def enabledState : CamState → Bool
  | .offline | .adopting => false
  | _ => true

/-- The states with a move under way: MOVING, HALTING and HALTED. -/
def movingState : CamState → Bool
  | .moving | .halting | .halted => true
  | _ => false

end Sys2Proof.Machine
end

