-- ==== Sys2Proof/Machine/Motion.lean ====
section
/-! DEFINITION. The arithmetic of a move: the planner's stages 1 to 7 (R17 to R24), position from progress (R26 to R28),
the slew and the advance (R33), and the step of a camera in DIRECT (R141). Exact integer arithmetic (R27, R29). -/

namespace Sys2Proof.Machine

/-! Planning -/

/-- What a move cue asks of the planner (R17, R18). -/
structure MoveRequest where
  /-- the target asked of each present axis -/
  target : Positions
  /-- Dreq -/
  duration : Nat
  /-- Rreq -/
  ramp : Nat
  onAir : Bool
  deriving DecidableEq, Repr

/-- What stages 1 to 7 answer. -/
inductive Planned where
  /-- the planning ends the cue NO_TRAVEL, with the detail mask (R21) -/
  | noTravel (detail : BitVec 7)
  /-- the planning ends the cue TOO_LONG (R22) -/
  | tooLong
  /-- a plan -/
  | plan (pl : Plan)
  deriving DecidableEq, Repr

/-- Stage 1: a target brought within the axis's soft limits (R19). -/
def clampedTarget (cfg : CamConfig) (t : Positions) (a : Axis) : Int := clampInt cfg.axes[a].min cfg.axes[a].max t[a]

/-- Stage 2: the axis's speed for this move (R20). -/
def moveSpeed (cfg : CamConfig) (onAir : Bool) (a : Axis) : Nat := if onAir then cfg.axes[a].von else cfg.axes[a].voff

/-- Stage 2: the axis is held, its speed being 0 and its clamped target differing from its origin (R20). -/
def axisHeld (cfg : CamConfig) (o : Positions) (r : MoveRequest) (a : Axis) : Bool :=
  moveSpeed cfg r.onAir a == 0 && clampedTarget cfg r.target a != o[a]

/-- The origin kept by the plan: the current setpoint of a present axis, 0 for an absent one (R17, R3). -/
def planOrigin (cfg : CamConfig) (o : Positions) : Positions :=
  positionsOf fun a => if inMask cfg.mask a then o[a] else 0

/-- The target left by stages 1 and 2 (R19, R20). -/
def planTarget (cfg : CamConfig) (o : Positions) (r : MoveRequest) : Positions :=
  positionsOf fun a =>
    if inMask cfg.mask a then (if axisHeld cfg o r a then o[a] else clampedTarget cfg r.target a) else 0

/-- The detail mask: the present axes clamped or held (R19, R20). An axis whose asked target is its origin is not
clamped and does not join the mask (R19). -/
def planDetail (cfg : CamConfig) (o : Positions) (r : MoveRequest) : BitVec 7 :=
  maskOf fun a =>
    inMask cfg.mask a && ((clampedTarget cfg r.target a != r.target[a]) || axisHeld cfg o r a)

/-- Stage 3: the travel (R21). -/
def planDelta (cfg : CamConfig) (o : Positions) (r : MoveRequest) : Positions :=
  positionsOf fun a => (planTarget cfg o r)[a] - (planOrigin cfg o)[a]

/-- ceil (x / v), for v at least 1. -/
def ceilDiv (x v : Nat) : Nat := (x + v - 1) / v

/-- Stage 4: the largest of Dreq and the frames each travelling axis needs (R22). -/
def planFrames (cfg : CamConfig) (r : MoveRequest) (delta : Positions) : Nat :=
  (maskAxes cfg.mask).foldl
    (fun n a =>
      if delta[a] = 0 then n else Nat.max n (r.ramp + ceilDiv delta[a].natAbs (moveSpeed cfg r.onAir a)))
    r.duration

/-- Stage 6: the denominator K (R23). -/
def planK (n' r' : Nat) : Nat := if r' = 0 then n' else 2 * r' * (n' - r')

/-- Stage 7: the tally cap C (R24). -/
def planCap (cfg : CamConfig) (onAir : Bool) (delta : Positions) (n r : Nat) : Nat :=
  if onAir then 256
  else
    (maskAxes cfg.mask).foldl
      (fun c a => if delta[a] = 0 then c else Nat.min c (256 * cfg.axes[a].von * (n - r) / delta[a].natAbs))
      256

/-- Stages 1 to 7 of planning (R19 to R24), from the origin o. -/
def planMove (cfg : CamConfig) (o : Positions) (req : MoveRequest) : Planned :=
  let delta := planDelta cfg o req
  if (maskAxes cfg.mask).all fun a => delta[a] == 0 then .noTravel (planDetail cfg o req)
  else
    let n := planFrames cfg req delta
    if 65535 < n then .tooLong
    else
      let r := Nat.min req.ramp (n / 2)
      .plan
        { origin := planOrigin cfg o, target := planTarget cfg o req, delta := delta, detail := planDetail cfg o req,
          onAir := req.onAir, n := n, r := r, n' := 256 * n, r' := 256 * r, k := planK (256 * n) (256 * r),
          c := planCap cfg req.onAir delta n r }

/-! Position from progress -/

/-- The numerator num of progress p (R26). -/
def moveNum (pl : Plan) (p : Nat) : Nat :=
  if pl.r = 0 then p
  else if p ≤ pl.r' then p * p
  else if p ≤ pl.n' - pl.r' then pl.r' * (2 * p - pl.r')
  else pl.k - (pl.n' - p) * (pl.n' - p)

/-- An axis's setpoint at a numerator: origin plus or minus floor (|travel| num / K) (R27). -/
def axisPosition (o d : Int) (num k : Nat) : Int :=
  let off : Int := ((d.natAbs * num / k : Nat) : Int)
  if 0 ≤ d then o + off else o - off

/-- The setpoints at progress p (R27). -/
def movePositions (pl : Plan) (p : Nat) : Positions :=
  positionsOf fun a => axisPosition pl.origin[a] pl.delta[a] (moveNum pl p) pl.k

/-- The reported progress Q (R28). -/
def moveQ (pl : Plan) (p : Nat) : Nat := 65536 * moveNum pl p / pl.k

/-! The serviced tick -/

/-- The slew of the rate toward RT by at most the slew step (R33 step 1). -/
def slewRate (step rate rt : Nat) : Nat :=
  if rate < rt then Nat.min (rate + step) rt else if rt < rate then Nat.max (rate - step) rt else rate

/-- Steps 1 to 3 of a serviced tick for a camera in MOVING or HALTING: slew, advance, position (R33). -/
def advanceMove (k : Camera) : Camera :=
  let rate := slewRate k.cfg.slew k.rate k.rt
  let p := Nat.min (k.p + rate) k.plan.n'
  { k with rate := rate, p := p, setpoints := movePositions k.plan p, q := moveQ k.plan p }

/-- The step size S of an axis in DIRECT (R141, R7). -/
def directStep (k : Camera) (a : Axis) : Int :=
  if k.stopLatch then 0 else if k.onAir then (k.cfg.axes[a].von : Int) else (k.cfg.axes[a].voff : Int)

/-- One axis's step toward its direct target (R141): onto the target when it is at most S away, and by exactly S
otherwise. -/
def stepToward (pos target step : Int) : Int :=
  if (target - pos).natAbs ≤ step.natAbs then target else if pos < target then pos + step else pos - step

/-- A serviced tick for a camera in DIRECT (R141). -/
def stepDirect (k : Camera) : Camera :=
  match k.direct with
  | none => k
  | some t =>
    { k with
      setpoints :=
        positionsOf fun a =>
          if inMask k.cfg.mask a then stepToward k.setpoints[a] t[a] (directStep k a) else k.setpoints[a] }

/-- What a serviced tick does to a camera's motion, by its state (R33, R141, R128). -/
def serviceCamera (k : Camera) : Camera :=
  match k.state with
  | .moving | .halting => advanceMove k
  | .direct => stepDirect k
  | _ => k

end Sys2Proof.Machine
end

