-- ==== Sys2Proof/Machine/Flags.lean ====
section
/-! DEFINITION. The twelve device flags and their setting (R165), the interrupt line (R166) and the error capture record
(R167). -/

namespace Sys2Proof.Machine

/-! The flag bits (12.2) -/

def flagCueResult : BitVec 12 := 0x001
def flagCueRefused : BitVec 12 := 0x002
def flagSyncLost : BitVec 12 := 0x004
def flagSyncRegained : BitVec 12 := 0x008
def flagFrameMissed : BitVec 12 := 0x010
def flagFenceHit : BitVec 12 := 0x020
def flagParityFault : BitVec 12 := 0x040
def flagMemTimeout : BitVec 12 := 0x080
def flagStopOn : BitVec 12 := 0x100
def flagStopOff : BitVec 12 := 0x200
def flagTallyEdge : BitVec 12 := 0x400
def flagZoneRefused : BitVec 12 := 0x800

/-- A source sets flags. A change marks the flags word due; a flag already set stays set without change (R165). -/
def setFlags (f : BitVec 12) (w : StatusWriter) : StatusWriter :=
  { w with flags := w.flags ||| f, flagsDue := w.flagsDue || (w.flags ||| f != w.flags) }

/-- The host clears the flags named by ones; this marks nothing due (R165). -/
def clearFlags (f : BitVec 12) (w : StatusWriter) : StatusWriter := { w with flags := w.flags &&& ~~~f }

/-- IRQn is asserted exactly while at least one flag is both set and unmasked (R166). -/
def State.irq (s : State) : Bool := s.stat.flags &&& ~~~s.stat.mask != 0

/-- The severity of a class: MEM_TIMEOUT above OWN_PARITY above PASS_PARITY (R167). -/
def severity : ErrClass → Nat
  | .empty => 0 | .passParity => 1 | .ownParity => 2 | .memTimeout => 3

/-- The flag an error of a class sets (R165). -/
def errFlag : ErrClass → BitVec 12
  | .memTimeout => flagMemTimeout
  | _ => flagParityFault

/-- An error is handed to the Status Writer: its flag is set, and it is taken into the record when the record is empty
or it is more severe than the class held. Each change of the record marks its words due (R167). -/
def captureError (e : ErrorRecord) (w : StatusWriter) : StatusWriter :=
  let w := setFlags (errFlag e.cls) w
  if severity w.capture.cls < severity e.cls then
    { w with capture := e, captureDue := true }
  else w

/-- The host empties the record; emptying a record that is not empty changes it and marks its words due (R167). -/
def clearCapture (w : StatusWriter) : StatusWriter :=
  { w with capture := emptyError, captureDue := w.captureDue || (w.capture != emptyError) }

end Sys2Proof.Machine
end

