-- ==== Sys2Proof/Machine/Layout.lean ====
section
/-! DEFINITION. Where every word of the region lies (12, R172 to R176), the class of a host write to each (R152), and
the area codes of the probe (R156). -/

namespace Sys2Proof.Machine

/-- The treatment of a host write to one word of the region (R152). -/
inductive RegionWord where
  /-- PASS with no effect on the part -/
  | pass
  /-- REFUSE with no count -/
  | refuse
  /-- the flags word (R165) -/
  | flags
  /-- the mask word (R166) -/
  | mask
  /-- the capture clear word (R167) -/
  | captureClear
  /-- the missed-frame counter word (R129) -/
  | missed
  /-- the hit counter word of fence entry n (R155) -/
  | hits (n : Fin 8)
  /-- word k of the BASE and MASK pairs of fence entry n (R153) -/
  | fenceBound (n : Fin 8) (k : Fin 4)
  /-- the MODE word of fence entry n (R153) -/
  | fenceMode (n : Fin 8)
  /-- the low half of the probe address pair (R157) -/
  | probeLow
  /-- the high half of the probe address pair (R156) -/
  | probeHigh
  /-- bound word k of zone entry z (R113) -/
  | zoneBound (z : Fin 16) (k : Fin 4)
  /-- the ENABLE word of zone entry z (R114, R116) -/
  | zoneEnable (z : Fin 16)
  /-- the COMMAND word of camera c's mailbox (R66) -/
  | command (c : Cam)
  /-- mailbox word 1 + k of camera c (R65) -/
  | latch (c : Cam) (k : Fin 4)
  /-- a word of camera c's config block (R15) -/
  | config (c : Cam)
  /-- words 0 to 32 of camera c's setpoint frame (R137) -/
  | frame (c : Cam)
  /-- a half of the direct slot of axis a of camera c (R138, R139) -/
  | slot (c : Cam) (a : Axis) (high : Bool)
  /-- a word of the shot store (R91, R95) -/
  | shot
  deriving DecidableEq, Repr

/-- The treatment of a word of the device status block, by its offset (R152, R172). -/
def blockWordClass (off : Nat) : RegionWord :=
  if off = 0x40 then .flags
  else if off = 0x41 then .mask
  else if off = 0x48 then .missed
  else if 0x50 ≤ off ∧ off < 0x58 then .hits (Fin.ofNat 8 (off - 0x50))
  else if off = 0x60 then .captureClear
  else .refuse

/-- The treatment of word k of fence entry n (R152, R153). -/
def fenceWordClass (n : Fin 8) (k : Nat) : RegionWord :=
  if k < 4 then .fenceBound n (Fin.ofNat 4 k) else if k = 4 then .fenceMode n else .pass

/-- The treatment of word k of zone entry z (R152, R113). -/
def zoneWordClass (z : Fin 16) (k : Nat) : RegionWord :=
  if k < 4 then .zoneBound z (Fin.ofNat 4 k) else if k = 4 then .zoneEnable z
  else if k = 5 then .refuse else .pass

/-- The treatment of word k of camera c's mailbox (R152, R65, R66). -/
def mailboxWordClass (c : Cam) (k : Nat) : RegionWord :=
  if k = 0 then .command c else if k < 5 then .latch c (Fin.ofNat 4 (k - 1)) else .pass

/-- The treatment of word k of camera c's setpoint frame (R152, R137, R138). -/
def frameWordClass (c : Cam) (k : Nat) : RegionWord :=
  if k < 33 then .frame c
  else if 48 ≤ k ∧ k < 62 then .slot c (Fin.ofNat 7 ((k - 48) / 2)) ((k - 48) % 2 == 1)
  else .pass

/-- The treatment of a host write to the region word at `off` (R152, with the places of R172 to R176). -/
def regionWord (off : Nat) : RegionWord :=
  if off < 0x40 then .pass
  else if off < 0x80 then blockWordClass off
  else if off < 0xC0 then fenceWordClass (Fin.ofNat 8 ((off - 0x80) / 8)) ((off - 0x80) % 8)
  else if off = 0xC0 then .probeLow
  else if off = 0xC1 then .probeHigh
  else if off = 0xC2 then .refuse
  else if off < 0x100 then .pass
  else if off < 0x180 then zoneWordClass (Fin.ofNat 16 ((off - 0x100) / 8)) ((off - 0x100) % 8)
  else if off < 0x200 then .pass
  else if off < 0x280 then mailboxWordClass (Fin.ofNat 8 ((off - 0x200) / 16)) ((off - 0x200) % 16)
  else if off < 0x400 then .pass
  else if off < 0x800 then .config (Fin.ofNat 8 ((off - 0x400) / 128))
  else if off < 0xA00 then .refuse
  else if off < 0xC00 then frameWordClass (Fin.ofNat 8 ((off - 0xA00) / 64)) ((off - 0xA00) % 64)
  else if off < 0x1000 then .refuse
  else if off < 0x4000 then .pass
  else if off < 0x8000 then .shot
  else .pass

/-- The code of the area that holds a region word (R156, 12.1). -/
def areaCode (off : Nat) : Nat :=
  if off < 0x40 then 1
  else if off < 0x80 then 2
  else if off < 0xC0 then 3
  else if off < 0xC4 then 4
  else if off < 0x100 then 12
  else if off < 0x180 then 5
  else if off < 0x200 then 12
  else if off < 0x280 then 6
  else if off < 0x400 then 12
  else if off < 0x800 then 7
  else if off < 0xA00 then 8
  else if off < 0xC00 then 9
  else if off < 0x1000 then 10
  else if off < 0x4000 then 12
  else if off < 0x8000 then 11
  else 12

/-- The address of a region word: the base is 0x000000, 0x400000, 0x800000 or 0xC00000 as the straps read 0 to 3, and
the offset is counted from it (R150). -/
def addrOf (base : BitVec 2) (off : Offset) : Addr := base ++ (0#6 ++ off)

/-- The offset of a region access, and none for an outside access (R150). -/
def offsetOf (base : BitVec 2) (a : Addr) : Option Nat :=
  if a.extractLsb' 16 8 = base ++ 0#6 then some (a.extractLsb' 0 16).toNat else none

/-- The offset of word k of fence entry n (R173). -/
def fenceOff (n : Fin 8) (k : Nat) : Offset := BitVec.ofNat 16 (0x80 + 8 * n.val + k)

/-- The offset of the hit counter word of fence entry n (R172). -/
def hitsOff (n : Fin 8) : Offset := BitVec.ofNat 16 (0x50 + n.val)

/-- The offset of word k of zone entry z (R173). -/
def zoneOff (z : Fin 16) (k : Nat) : Offset := BitVec.ofNat 16 (0x100 + 8 * z.val + k)

/-- The offset of word k of camera c's mailbox (R173). -/
def mailboxOff (c : Cam) (k : Nat) : Offset := BitVec.ofNat 16 (0x200 + 16 * c.val + k)

/-- The offset of word k of camera c's config block (R174). -/
def configOff (c : Cam) (k : Nat) : Offset := BitVec.ofNat 16 (0x400 + 128 * c.val + k)

/-- The offset of word k of camera c's status record (R175). -/
def recordOff (c : Cam) (k : Nat) : Offset := BitVec.ofNat 16 (0x800 + 64 * c.val + k)

/-- The offset of word k of camera c's setpoint frame (R176). -/
def frameOff (c : Cam) (k : Nat) : Offset := BitVec.ofNat 16 (0xA00 + 64 * c.val + k)

/-- The offset of word k of shot s of camera c (R176). -/
def shotOff (c : Cam) (s k : Nat) : Offset := BitVec.ofNat 16 (0x4000 + 0x800 * c.val + 32 * s + k)

/-- The offset of the floor image word of cell (x, y) (R118, R176). -/
def cellOff (x y : Fin 32) : Offset := BitVec.ofNat 16 (0xC00 + 32 * y.val + x.val)

end Sys2Proof.Machine
end

