-- ==== Sys2Proof/Machine/Ops.lean ====
section
/-! DEFINITION. The named operations over memory, cameras, flags and results that every command uses. -/

namespace Sys2Proof.Machine

/-! Memory: a list of (address, word), addresses rising, nothing listed that equals what an unlisted word reads. -/

/-- The word at an address in a list of cells. -/
def memLookup (a : Nat) : List (Nat × MWord) → MWord
  | [] => Config.blankWord
  | (b, w) :: m => if b = a then w else if a < b then Config.blankWord else memLookup a m

/-- Put a word at an address, keeping the addresses rising; the blank word is not listed. -/
def memInsert (a : Nat) (w : MWord) : List (Nat × MWord) → List (Nat × MWord)
  | [] => if w = Config.blankWord then [] else [(a, w)]
  | (b, v) :: m =>
    if b = a then (if w = Config.blankWord then m else (a, w) :: m)
    else if a < b then (if w = Config.blankWord then (b, v) :: m else (a, w) :: (b, v) :: m)
    else (b, v) :: memInsert a w m

/-- The canonical form of memory: addresses strictly rising and below 2^24, no blank word listed. -/
def memWf (m : List (Nat × MWord)) : Bool :=
  (m.map Prod.fst).Pairwise (· < ·) && m.all fun e => e.2 != Config.blankWord && decide (e.1 < 2 ^ 24)

/-- The word memory holds at an address. -/
def State.read (s : State) (a : Addr) : MWord := memLookup a.toNat s.mem

/-- A word reaches memory. -/
def State.write (s : State) (a : Addr) (w : MWord) : State := { s with mem := memInsert a.toNat w s.mem }

/-- The word memory holds at a region offset. -/
def State.readAt (s : State) (off : Offset) : MWord := s.read (addrOf s.base off)

/-! Cameras -/

/-- Camera c. -/
def State.cam (s : State) (c : Cam) : Camera := s.cams[c]

/-- Replace camera c. -/
def State.setCam (s : State) (c : Cam) (k : Camera) : State := { s with cams := s.cams.set c k }

/-- Change camera c. -/
def State.modCam (s : State) (c : Cam) (f : Camera → Camera) : State := s.setCam c (f (s.cam c))

/-- All cameras, in camera order. -/
def allCams : List Cam := List.finRange 8

/-! Blocks -/

/-- Change the Status Writer's state. -/
def State.modStat (s : State) (f : StatusWriter → StatusWriter) : State := { s with stat := f s.stat }

/-- A source sets device flags (R165). -/
def State.flag (s : State) (f : BitVec 12) : State := s.modStat (setFlags f)

/-- An error is handed to the Status Writer (R167). -/
def State.error (s : State) (cls : ErrClass) (own : Bool) (a : Addr) (w : MWord) : State :=
  s.modStat (captureError ⟨cls, own, a, w⟩)

/-! Results (R83 to R85) -/

/-- A result is recorded in camera c's result group: the count rises by one, CUE_RESULT is set, and CUE_REFUSED too for
a refusal (R83, R85). -/
def recordResult (c : Cam) (tag : BitVec 8) (kind : BitVec 4) (code : Code) (detail : BitVec 16) (s : State) : State :=
  (s.modCam c fun k => { k with result := ⟨tag, kind, code, detail⟩, resultCount := k.resultCount + 1 }).flag
    (if isRefusal code then flagCueResult ||| flagCueRefused else flagCueResult)

/-- The active cue of camera c gets its final result and is removed (R73, R83): the camera enters IDLE, its wait reasons
are emptied, and its wait count is discarded (R42, R109). -/
def endActive (c : Cam) (code : Code) (detail : BitVec 16) (s : State) : State :=
  let s :=
    match (s.cam c).active with
    | some q => recordResult c q.tag (moveKindCode q.kind) code detail s
    | none => s
  s.modCam c fun k =>
    { k with active := none, state := .idle, waitStop := false, waitTally := false, waitFloor := false, waitCount := 0 }

/-! Rate target (R32) -/

/-- The rate target of a camera with an active move (R32). -/
def rateTarget (k : Camera) : Nat :=
  if k.halt then 0 else if k.onAir then Nat.min k.override k.plan.c else k.override

/-- RT is formed again for a camera with an active move (R32). -/
def reformRate (k : Camera) : Camera := if movingState k.state then { k with rt := rateTarget k } else k

/-- The blocked-write count rises by one and stays at 255 (R137). -/
def countBlocked (k : Camera) : Camera := { k with blocked := Nat.min 255 (k.blocked + 1) }

end Sys2Proof.Machine
end

