-- ==== Sys2Proof/Machine/Floor.lean ====
section
/-! DEFINITION. Floor geometry, cells and rectangles (R99 to R103), the move begin (R54), the try of a claim (R106), planning
on the state (R25, R50, R104), the taking of the head (R48) and the release examination (R107). -/

namespace Sys2Proof.Machine

/-! Geometry (R99, R100, R102) -/

/-- The cell of a floor count along one direction: floor ((x - origin) / 2^s), clamped to 0..31 (R100). -/
def cellOf (origin : BitVec 32) (shift : Nat) (x : Int) : Nat :=
  (clampInt 0 31 ((x - origin.toInt) / (2 ^ shift : Int))).toNat

/-- The rectangle of cells of the counts x0..x1 by y0..y1. -/
def spanRect (f : FloorMap) (x0 x1 y0 y1 : Int) : Rect :=
  { x0 := cellOf f.ox f.shift x0, x1 := cellOf f.ox f.shift x1, y0 := cellOf f.oy f.shift y0,
    y1 := cellOf f.oy f.shift y1 }

/-- The parked rectangle at a floor position with margin m (R102). -/
def parkedRect (f : FloorMap) (m x y : Int) : Rect := spanRect f (x - m) (x + m) (y - m) (y + m)

/-- The claim rectangle of a move from o to t with margin m (R102). -/
def claimRect (f : FloorMap) (m : Int) (o t : Positions) : Rect :=
  spanRect f (min o[floorX] t[floorX] - m) (max o[floorX] t[floorX] + m) (min o[floorY] t[floorY] - m)
    (max o[floorY] t[floorY] + m)

/-- The cell (x, y) lies in the rectangle. -/
def inRect (r : Rect) (x y : Fin 32) : Bool :=
  decide (r.x0 ≤ x.val ∧ x.val ≤ r.x1 ∧ r.y0 ≤ y.val ∧ y.val ≤ r.y1)

/-- Some cell of the rectangle has the property. -/
def anyCell (f : FloorMap) (r : Rect) (p : Cell → Bool) : Bool :=
  (List.finRange 32).any fun y => (List.finRange 32).any fun x => inRect r x y && p (gridAt f.cells x y)

/-- The cells after a change. -/
def paintCells (f : Fin 32 → Fin 32 → Cell → Cell) (g : Grid Cell) : Grid Cell := gridOf fun x y => f x y (gridAt g x y)

/-- The due marks of the floor image words after a change: each change of a cell's state makes its word due (R118). -/
def paintDue (f : Fin 32 → Fin 32 → Cell → Cell) (g : Grid Cell) (due : Grid Bool) : Grid Bool :=
  gridOf fun x y => gridAt due x y || (f x y (gridAt g x y) != gridAt g x y)

/-- Change the cells. -/
def State.paint (s : State) (f : Fin 32 → Fin 32 → Cell → Cell) : State :=
  { s with
    floor := { s.floor with cells := paintCells f s.floor.cells }
    stat := { s.stat with cellDue := paintDue f s.floor.cells s.stat.cellDue } }

/-- The FREE cells of the rectangle become HELD by camera c (R106, R47). -/
def State.holdRect (s : State) (c : Cam) (r : Rect) : State :=
  s.paint fun x y v => if inRect r x y && v == .free then .held c else v

/-- The cells HELD by camera c that lie outside the rectangle, all of them for none, become FREE (R110, R111). -/
def State.freeOutside (s : State) (c : Cam) (r : Option Rect) : State :=
  s.paint fun x y v => if v == .held c && !(r.any (inRect · x y)) then .free else v

/-- The camera is in the set of waiting cameras: WAITING, with FLOOR as its sole wait reason (R105). -/
def inWaitingSet (k : Camera) : Bool := k.state == .waiting && k.waitFloor && !k.waitStop && !k.waitTally

/-- The camera is ROAMING (R2). -/
def isRoaming (k : Camera) : Bool := k.cfg.kind == some .roaming

/-! Move begin (R54, R30) -/

/-- The return stack at move begin: a RETURN pops, then PUSH pushes the origin, dropping the oldest of four (R54, R97). -/
def stackAtBegin (q : Cue) (k : Camera) : List Positions :=
  let st := if q.kind = .ret then k.stack.tail else k.stack
  if q.push then (k.setpoints :: st).take 4 else st

/-- A move begins: the stack is popped or pushed, the marks are cleared, P is 0, the rate starts at RT, and the camera
enters MOVING with no wait reason (R54, R30, R42). -/
def beginMove (c : Cam) (s : State) : State :=
  s.modCam c fun k =>
    let k :=
      { k with
        stack := (match k.active with | some q => stackAtBegin q k | none => k.stack)
        halt := false, abandon := false, waitStop := false, waitTally := false, waitFloor := false, p := 0
        waitCount := 0, state := .moving }
    { k with rt := rateTarget k, rate := rateTarget k }

/-- A try of camera c's claim (R106): KEEP_OUT at a BLOCKED cell; else denied at a cell HELD by another camera; else
granted, and the move begins. Answers the state and whether the cue ended. -/
def tryClaim (c : Cam) (s : State) : State × Bool :=
  match (s.cam c).claim with
  | none => (s, false)
  | some r =>
    if anyCell s.floor r (· == .blocked) then (endActive c .keepOut 0 s, true)
    else if anyCell s.floor r (fun v => v != .free && v != .held c) then (s, false)
    else (beginMove c ((s.holdRect c r).modCam c fun k => { k with held := some r, waitFloor := false }), false)

/-- What follows a change of a WAITING camera's reasons that removed one: the move begins when none is left, and the claim
is tried when FLOOR alone is left (R51, R52). -/
def reasonsChanged (c : Cam) (s : State) : State × Bool :=
  let k := s.cam c
  if k.state = .waiting ∧ !k.waitStop ∧ !k.waitTally then
    if k.waitFloor then tryClaim c s else (beginMove c s, false)
  else (s, false)

/-! Planning on the state (R25, R50, R104) -/

/-- The successful planning: the plan is written, P, rate and Q are 0, and the wait reasons are formed (R16, R25, R50).
`floor` says that the claim needs floor; the wait count starts at 0 when FLOOR is formed (R109). -/
def writePlan (pl : Plan) (claim : Option Rect) (floor : Bool) (k : Camera) : Camera :=
  { k with
    plan := pl, p := 0, rate := 0, q := 0, claim := claim
    waitStop := k.stopLatch, waitTally := k.onAir && !pl.onAir, waitFloor := floor
    waitCount := if floor then 0 else k.waitCount
    state := .waiting }

/-- Stage 8 for a ROAMING camera: the claim rectangle, whether it meets a BLOCKED cell, and whether it needs floor
(R104). -/
def planClaim (c : Cam) (pl : Plan) (s : State) : Option Rect × Bool × Bool :=
  let k := s.cam c
  if isRoaming k then
    let r := claimRect s.floor k.cfg.margin pl.origin pl.target
    (some r, anyCell s.floor r (· == .blocked),
      (pl.delta[floorX] != 0 || pl.delta[floorY] != 0) && anyCell s.floor r (· != .held c))
  else (none, false, false)

/-- The Move Planner plans camera c's active cue (R25, R50). Answers the state and whether the planning, or the try it
led to, ended the cue. -/
def planActive (c : Cam) (req : MoveRequest) (s : State) : State × Bool :=
  let k := s.cam c
  match planMove k.cfg k.setpoints req with
  | .noTravel detail => (endActive c .noTravel (detail.setWidth 16) s, true)
  | .tooLong => (endActive c .tooLong 0 s, true)
  | .plan pl =>
    let (claim, blocked, floor) := planClaim c pl s
    if blocked then (endActive c .keepOut 0 s, true)
    else reasonsChanged c (s.modCam c (writePlan pl claim floor))

/-- The request a RETURN makes: the record on top of the stack, Dreq and Rreq from the cue (R17, R18). -/
def returnRequest (k : Camera) (q : Cue) (rec : Positions) : MoveRequest :=
  { target := rec, duration := q.duration.toNat
    ramp := if q.ramp = 65535 then k.cfg.ramp else clampNat 0 32767 q.ramp.toNat
    onAir := q.onAir }

/-! Taking the head (R48) -/

/-- A camera in IDLE takes the cue at the head of its queue; a head that ends at once is followed by the next. `fuel` bounds
the heads taken, one for each queued cue. -/
def takeHeadN : Nat → Cam → State → State
  | 0, _, s => s
  | fuel + 1, c, s =>
    let k := s.cam c
    match k.state, k.queue with
    | .idle, q :: rest =>
      let s := s.modCam c fun k => { k with queue := rest, active := some q }
      match q.kind with
      | .goto =>
        let s := s.modCam c fun k => { k with state := .fetching }
        { s with shot := { s.shot with arrivals := s.shot.arrivals ++ [⟨c, q.arg.toNat, q.tag, .fetch⟩] } }
      | .ret =>
        match k.stack with
        | [] => takeHeadN fuel c (endActive c .stackEmpty 0 s)
        | rec :: _ =>
          let (s, ended) := planActive c (returnRequest k q rec) s
          if ended then takeHeadN fuel c s else s
    | _, _ => s

/-- A camera in IDLE takes the head of its queue (R48). -/
def takeHead (c : Cam) (s : State) : State := takeHeadN (s.cam c).queue.length c s

/-- After a step that may have ended the active cue: the camera takes its next head when it did. -/
def nextHead (c : Cam) (r : State × Bool) : State := if r.2 then takeHead c r.1 else r.1

/-! The release examination (R107) -/

/-- The level of a camera's active cue. -/
def activeLevel (k : Camera) : Nat :=
  match k.active with
  | some q => q.level.toNat
  | none => 4

/-- The waiting cameras, ordered by the level of their active cues, then by camera number (R107). -/
def examList (s : State) : List Cam :=
  [0, 1, 2, 3].flatMap fun l => allCams.filter fun c => inWaitingSet (s.cam c) && activeLevel (s.cam c) == l

/-- One camera's try within an examination, with the head it then takes when the try ends its cue (R107). -/
def examOne (s : State) (c : Cam) : State :=
  if inWaitingSet (s.cam c) then nextHead c (tryClaim c s) else s

/-- The release examination: each waiting camera of the set as it stands at the start is tried once (R107). -/
def releaseExam (s : State) : State := (examList s).foldl examOne s

/-- A ROAMING camera gives back the cells outside its parked rectangle at a floor position, and the examination follows
(R110). -/
def giveBack (c : Cam) (x y : Int) (s : State) : State :=
  let k := s.cam c
  if isRoaming k then
    let r := parkedRect s.floor k.cfg.margin x y
    releaseExam ((s.freeOutside c (some r)).modCam c fun k => { k with held := some r })
  else s

/-! The ends of a move (R56, R59) -/

/-- The result of a completed move: DONE, or DONE_CLAMPED with the detail mask (R34). -/
def completionCode (detail : BitVec 7) : Code := if detail = 0 then .done else .doneClamped

/-- A move completes: its cue ends, both marks are cleared, the floor outside the parked rectangle at the target is given
back, and the camera takes its next head (R34, R56). -/
def completeMove (c : Cam) (s : State) : State :=
  let pl := (s.cam c).plan
  let s := endActive c (completionCode pl.detail) (pl.detail.setWidth 16) s
  let s := s.modCam c fun k => { k with halt := false, abandon := false }
  takeHead c (giveBack c pl.target[floorX] pl.target[floorY] s)

/-- The first part of an abandonment: the cue ends ABANDONED, both marks are cleared, and the floor outside the parked
rectangle at the current setpoints is given back. The camera is IDLE (R59). -/
def abandonCue (c : Cam) (s : State) : State :=
  let sp := (s.cam c).setpoints
  let s := endActive c .abandoned 0 s
  let s := s.modCam c fun k => { k with halt := false, abandon := false }
  giveBack c sp[floorX] sp[floorY] s

/-- An abandonment of a begun move, with the head the camera then takes (R59). -/
def abandonMove (c : Cam) (s : State) : State := takeHead c (abandonCue c s)

end Sys2Proof.Machine
end

