-- ==== Sys2Proof/Machine/Shots.lean ====
section
/-! DEFINITION. The Shot Engine: requests, cancelling, the fetch, the capture and the overlap with host writes (R86 to
R95). -/

namespace Sys2Proof.Machine

/-- Change the Shot Engine. -/
def State.modShot (s : State) (f : ShotEngine → ShotEngine) : State := { s with shot := f s.shot }

/-- The request is a fetch of camera c. -/
def fetchOf (c : Cam) (r : ShotReq) : Bool := r.cam == c && r.work == .fetch

/-- The request is a capture of camera c. -/
def captureOf (c : Cam) (r : ShotReq) : Bool := r.cam == c && r.work != .fetch

/-- The access at the port no longer belongs to an operation: it runs to its end, and its word is not used (R88, R45,
R64, R91). -/
def State.orphanPort (s : State) (p : Owner → Bool) : State :=
  match s.port.cur with
  | some a => if p a.owner then { s with port := { s.port with cur := some { a with live := false } } } else s
  | none => s

/-- The owner is the Shot Engine. -/
def shotOwner : Owner → Bool
  | .fetch | .capture => true
  | _ => false

/-- Requests of a camera are removed from the FIFO, and one in flight is discarded (R88). -/
def cancelWork (p : ShotReq → Bool) (s : State) : State :=
  let s := s.modShot fun e => { e with fifo := e.fifo.filter (!p ·), arrivals := e.arrivals.filter (!p ·) }
  match s.shot.op with
  | some op => if p op.req then (s.modShot fun e => { e with op := none }).orphanPort shotOwner else s
  | none => s

/-- The outstanding CAPTURE of camera c, waiting in the FIFO or in flight (R81). -/
def outstandingCapture (c : Cam) (s : State) : Option ShotReq :=
  (s.shot.op.toList.map ShotOp.req ++ s.shot.fifo).find? (captureOf c)

/-- Put a request among others in camera order. -/
def insertReq (r : ShotReq) : List ShotReq → List ShotReq
  | [] => [r]
  | q :: rest => if r.cam < q.cam then r :: q :: rest else q :: insertReq r rest

/-- The requests of one event join the FIFO in ascending camera number (R87). -/
def joinArrivals (s : State) : State :=
  s.modShot fun e => { e with fifo := e.fifo ++ e.arrivals.foldl (fun l r => insertReq r l) [], arrivals := [] }

/-- When no operation is in flight the Shot Engine starts the entry at the head (R87). -/
def startShot (s : State) : State :=
  match s.shot.op, s.shot.fifo with
  | none, r :: rest =>
    s.modShot fun e =>
      { e with fifo := rest, op := some { req := r, words := [], written := 0, attempt := 1, overlap := false } }
  | _, _ => s

/-! Fetch (R90 to R92) -/

/-- The record word of the n-th read of an attempt: words 0, 1, 2, then 4 to 17 (R90). -/
def fetchWord (n : Nat) : Nat := if n < 3 then n else n + 1

/-- The value of axis a in the seventeen words of a record read by one attempt (R86). -/
def shotValue (ws : List (BitVec 16)) (a : Axis) : Int :=
  pairInt (ws.getD (3 + 2 * a.val) 0) (ws.getD (4 + 2 * a.val) 0)

/-- The request a GOTO makes: the shot's value for each axis in the shot's mask, the origin otherwise; Dreq and Rreq from
the cue and the shot (R17, R18, R86). -/
def gotoRequest (k : Camera) (q : Cue) (ws : List (BitVec 16)) : MoveRequest :=
  { target := positionsOf fun a =>
      if inMask ((ws.getD 0 0).extractLsb' 0 7) a then shotValue ws a else k.setpoints[a]
    duration := if q.duration = 0 then (ws.getD 1 0).toNat else q.duration.toNat
    ramp := clampNat 0 32767 (if q.ramp = 65535 then (ws.getD 2 0).toNat else q.ramp.toNat)
    onAir := q.onAir }

/-- A fetch ends without a record: its cue ends with the code and the camera, which is FETCHING, takes its next head (R49, R90). -/
def failFetch (c : Cam) (code : Code) (s : State) : State :=
  let s := s.modShot fun e => { e with op := none }
  if (s.cam c).state = .fetching then takeHead c (endActive c code 0 s) else s

/-- A fetch completes: the record is handed to the Move Planner, which plans the active GOTO of the camera, which is FETCHING (R92,
R50). -/
def completeFetch (c : Cam) (ws : List (BitVec 16)) (s : State) : State :=
  let s := s.modShot fun e => { e with op := none }
  match (s.cam c).state, (s.cam c).active with
  | .fetching, some q => nextHead c (planActive c (gotoRequest (s.cam c) q ws) s)
  | _, _ => s

/-- A read of the fetch in flight ends with the word w from address a: it is judged for parity and for VALID (R90). -/
def fetchRead (a : Addr) (w : MWord) (s : State) : State :=
  match s.shot.op with
  | none => s
  | some op =>
    if !wordOk w then failFetch op.req.cam .readParity (s.error .ownParity true a w)
    else if op.words = [] ∧ w.data[15] = false then failFetch op.req.cam .shotEmpty s
    else
      let ws := op.words ++ [w.data]
      if ws.length < 17 then s.modShot fun e => { e with op := some { op with words := ws } }
      else completeFetch op.req.cam ws s

/-! Capture (R93 to R95) -/

/-- The capture's n-th word and its value: words 4 to 17, then 2, 1 and 0 (R94). -/
def captureWord (values : Positions) (mask : BitVec 7) (duration ramp : BitVec 16) (n : Nat) : Nat × BitVec 16 :=
  if n < 14 then
    let v := values[Fin.ofNat 7 (n / 2)]
    (4 + n, if n % 2 = 0 then lowHalf v else highHalf v)
  else if n = 14 then (2, ramp)
  else if n = 15 then (1, duration)
  else (0, 0x8000 ||| mask.setWidth 16)

/-- The kind code of CAPTURE (R70). -/
def kindCapture : BitVec 4 := 8

/-- A capture ends with a result, and the Shot Engine is free (R94, R95). -/
def endCapture (op : ShotOp) (code : Code) (s : State) : State :=
  recordResult op.req.cam op.req.tag kindCapture code 0 (s.modShot fun e => { e with op := none })

/-- A write of the capture in flight ends; after word 0 the capture is complete, DONE or DONE_OVERLAP (R94). -/
def captureWrite (s : State) : State :=
  match s.shot.op with
  | none => s
  | some op =>
    if op.written + 1 < 17 then s.modShot fun e => { e with op := some { op with written := op.written + 1 } }
    else endCapture op (if op.overlap then .doneOverlap else .done) s

/-- A timeout of the Shot Engine's access ends the operation with MEM_TIMEOUT (R90, R95). -/
def timeoutShot (s : State) : State :=
  match s.shot.op with
  | none => s
  | some op =>
    match op.req.work with
    | .fetch => failFetch op.req.cam .memTimeout s
    | .capture _ _ _ _ => endCapture op .memTimeout s

/-- A host write to the shot store word at offset off is checked against the record of the operation in flight (R91,
R95), as it is classed: for a write that interrupts a held low half, after that half is written (log 33). -/
def shotOverlap (off : Nat) (s : State) : State :=
  match s.shot.op with
  | none => s
  | some op =>
    if off / 32 = (shotOff op.req.cam op.req.shot 0).toNat / 32 then
      match op.req.work with
      | .capture _ _ _ _ => s.modShot fun e => { e with op := some { op with overlap := true } }
      | .fetch =>
        let s := s.orphanPort shotOwner
        if op.attempt < 4 then s.modShot fun e => { e with op := some { op with words := [], attempt := op.attempt + 1 } }
        else failFetch op.req.cam .shotUnstable s
    else s

end Sys2Proof.Machine
end

