-- ==== Sys2Proof/Machine/Adopt.lean ====
section
/-! DEFINITION. The adoption: its reads in order (R44), the pending config (R4 to R8), the ordered checks (R46), success
(R47) and failure. -/

namespace Sys2Proof.Machine

/-- The i-th word the adoption has taken, 0 for one not taken. -/
def takenWord (t : List (Option (BitVec 16))) (i : Nat) : BitVec 16 := (t.getD i none).getD 0

/-- The signed pair at words i and i + 1. -/
def takenPair (t : List (Option (BitVec 16))) (i : Nat) : Int := pairInt (takenWord t i) (takenWord t (i + 1))

/-- The formed mask; a bad kind word or mask word leaves it empty (R44). -/
def adoptMask (t : List (Option (BitVec 16))) : BitVec 7 :=
  match t.getD 0 none, t.getD 1 none with
  | some k, some m => formedMask k m
  | _, _ => 0

/-- The axes of the formed mask. -/
def adoptAxes (t : List (Option (BitVec 16))) : List Axis := maskAxes (adoptMask t)

/-- The place of the control word among the words read: after eight words and ten for each axis (R44). -/
def ctrlIndex (t : List (Option (BitVec 16))) : Nat := 8 + 10 * (adoptAxes t).length

/-- The control word read is VALID; a bad control word is followed by no bank reads (R44). -/
def adoptValid (t : List (Option (BitVec 16))) : Bool := (takenWord t (ctrlIndex t))[15]

/-- The bank the control word names as active (R131). -/
def adoptBank (t : List (Option (BitVec 16))) : Bank := if (takenWord t (ctrlIndex t))[14] then .b else .a

/-- The frame word of the pair of axis a in a bank: 3 + 2a for bank A, 19 + 2a for bank B (R176). -/
def bankWord (bank : Bank) (a : Axis) : Nat :=
  match bank with
  | .a => 3 + 2 * a.val
  | .b => 19 + 2 * a.val

/-- The offset of the next word an adoption of camera c reads after the words t, none when its reads are done (R44). -/
def adoptNext (c : Cam) (t : List (Option (BitVec 16))) : Option Offset :=
  let n := t.length
  if n < 8 then some (configOff c n)
  else if n < ctrlIndex t then
    (adoptAxes t)[(n - 8) / 10]?.map fun a => configOff c (16 + 16 * a.val + (n - 8) % 10)
  else if n = ctrlIndex t then some (frameOff c 0)
  else if adoptValid t then
    let j := n - (ctrlIndex t + 1)
    (adoptAxes t)[j / 2]?.map fun a => frameOff c (bankWord (adoptBank t) a + j % 2)
  else none

/-- The place of an axis's ten words (R4). -/
def axisIndex (t : List (Option (BitVec 16))) (a : Axis) : Nat := 8 + 10 * (adoptAxes t).idxOf a

/-- The pending config, each value clamped as its rule gives (R4 to R13). -/
def pendingConfig (t : List (Option (BitVec 16))) : CamConfig :=
  { kind := kindOf (takenWord t 0)
    mask := adoptMask t
    axes := Vector.ofFn fun a =>
      if inMask (adoptMask t) a then
        let i := axisIndex t a
        axisConfigOf (takenPair t i) (takenPair t (i + 2)) (takenPair t (i + 4)) (takenPair t (i + 6))
      else ⟨0, 0, 0, 0⟩
    tally := tallyOf (takenWord t 2)
    slew := slewOf (takenWord t 3)
    margin := marginOf (takenPair t 4)
    floorLimit := (takenWord t 6).toNat
    ramp := rampOf (takenWord t 7) }

/-- The pending config is invalid (R14). -/
def configInvalid (t : List (Option (BitVec 16))) : Bool :=
  let cfg := pendingConfig t
  cfg.kind == none
    || (cfg.kind == some .roaming && !((takenWord t 1)[5] && (takenWord t 1)[6]))
    || (adoptAxes t).any fun a => decide (cfg.axes[a].max < cfg.axes[a].min)

/-- The adopted positions: the bank pairs when VALID is set, the home positions otherwise, 0 for absent axes (R44,
R8, R47). -/
def adoptedPositions (t : List (Option (BitVec 16))) : Positions :=
  positionsOf fun a =>
    if inMask (adoptMask t) a then
      if adoptValid t then takenPair t (ctrlIndex t + 1 + 2 * (adoptAxes t).idxOf a)
      else takenPair t (axisIndex t a + 8)
    else 0

/-- The present axes whose adopted position lies outside the soft limits (R46 check 4). -/
def outOfLimits (t : List (Option (BitVec 16))) : BitVec 7 :=
  maskOf fun a =>
    inMask (adoptMask t) a &&
      (clampInt (pendingConfig t).axes[a].min (pendingConfig t).axes[a].max (adoptedPositions t)[a]
        != (adoptedPositions t)[a])

/-- The parked rectangle at the adopted position with the pending margin (R102, R112). -/
def adoptedRect (f : FloorMap) (t : List (Option (BitVec 16))) : Rect :=
  parkedRect f (pendingConfig t).margin (adoptedPositions t)[floorX] (adoptedPositions t)[floorY]

/-- The ordered checks at the end of the reads (R46): the ENABLE's result and its detail, DONE when all pass. -/
def adoptionCheck (c : Cam) (ad : Adoption) (timedOut : Bool) (f : FloorMap) : Code × BitVec 16 :=
  let t := ad.taken
  if ad.fault then (.readParity, 0)
  else if timedOut then (.memTimeout, 0)
  else if configInvalid t then (.configInvalid, 0)
  else if outOfLimits t ≠ 0 then (.outOfLimits, (outOfLimits t).setWidth 16)
  else if (pendingConfig t).kind = some .roaming ∧
      anyCell f (adoptedRect f t) (fun v => v != .free && v != .held c) then (.floorConflict, 0)
  else (.done, 0)

/-- The kind code of ENABLE (R70). -/
def kindEnable : BitVec 4 := 11

/-- What camera c holds after its adoption succeeds (R47, R132, R145, R148). -/
def adoptedCamera (t : List (Option (BitVec 16))) (latch onAir : Bool) (held : Option Rect) (k : Camera) : Camera :=
  { k with
    state := .idle, halt := false, abandon := false, waitStop := false, waitTally := false, waitFloor := false
    onAir := onAir, stopLatch := latch, cfg := pendingConfig t, adoption := none, plan := emptyPlan, p := 0
    rate := 0, rt := 0, q := 0, override := 256, setpoints := adoptedPositions t, direct := none, stack := []
    held := held, claim := none, waitCount := 0, activeBank := if adoptValid t then adoptBank t else .b }

/-- The adoption of camera c leaves the rank (R44). -/
def State.leaveAdoption (s : State) (c : Cam) : State := { s with adoptQueue := s.adoptQueue.filter (· != c) }

/-- An adoption fails: the camera is OFFLINE, its queued cues dropped, its applied config empty (R46). -/
def failAdoption (c : Cam) (ad : Adoption) (code : Code) (detail : BitVec 16) (s : State) : State :=
  let s := s.modCam c fun k => { k with state := .offline, adoption := none, queue := [], cfg := emptyConfig }
  recordResult c ad.tag kindEnable code detail (s.leaveAdoption c)

/-- An adoption succeeds (R47). -/
def succeedAdoption (c : Cam) (ad : Adoption) (s : State) : State :=
  let t := ad.taken
  let cfg := pendingConfig t
  let onAir := match cfg.tally with | some n => s.lines.onAir[n] | none => false
  let r := adoptedRect s.floor t
  let roaming := cfg.kind == some .roaming
  let s := if roaming then s.holdRect c r else s
  let s := s.modCam c (adoptedCamera t (s.lines.stop || ad.stopSeen) onAir (if roaming then some r else none))
  takeHead c (recordResult c ad.tag kindEnable .done 0 (s.leaveAdoption c))

/-- The adoption's reads end, by the last read or by a timeout (R46, R47). -/
def endAdoption (c : Cam) (ad : Adoption) (timedOut : Bool) (s : State) : State :=
  let (code, detail) := adoptionCheck c ad timedOut s.floor
  if code = .done then succeedAdoption c ad s else failAdoption c ad code detail s

/-- A read of camera c's adoption ends with the word w from address a: it is taken, or noted and captured as a parity
fault; after the last read the adoption ends (R44). -/
def adoptionRead (c : Cam) (a : Addr) (w : MWord) (s : State) : State :=
  match (s.cam c).adoption with
  | none => s
  | some ad =>
    let ad :=
      { ad with
        taken := ad.taken ++ [if wordOk w then some w.data else none]
        fault := ad.fault || !wordOk w }
    let s := if wordOk w then s else s.error .ownParity true a w
    let s := s.modCam c fun k => { k with adoption := some ad }
    match adoptNext c ad.taken with
    | some _ => s
    | none => endAdoption c ad false s

/-- A read of camera c's adoption times out: its reads end (R44). -/
def timeoutAdoption (c : Cam) (s : State) : State :=
  match (s.cam c).adoption with
  | none => s
  | some ad => endAdoption c ad true s

end Sys2Proof.Machine
end

