-- ==== Sys2Proof/Machine/Cues.lean ====
section
/-! DEFINITION. The Cue Unit: a post and its ordered checks (R66 to R69), the queue and cut-in (R71 to R75), the acting cues
(R76 to R82), with the camera rules each follows (03). -/

namespace Sys2Proof.Machine

/-- The cue is refused with WRONG_STATE, the detail being the camera's state code (R84). -/
def refuseState (c : Cam) (tag : BitVec 8) (kind : BitVec 4) (s : State) : State :=
  recordResult c tag kind .wrongState (camStateCode (s.cam c).state) s

/-- The cue ends DONE with a detail (R84). -/
def cueDone (c : Cam) (tag : BitVec 8) (kind : BitVec 4) (detail : BitVec 16) (s : State) : State :=
  recordResult c tag kind .done detail s

/-! Move cues (R71 to R75) -/

/-- Both marks are set, RT is 0, and the camera is HALTING (R55, R57, R75). -/
def markAbandon (k : Camera) : Camera := reformRate { k with halt := true, abandon := true, state := .halting }

/-- The new cue cuts in: CUT is set and the active cue's level is numerically greater (R74). -/
def cutsIn (k : Camera) (q : Cue) : Bool :=
  flagsCut k.latches[3].value && k.active.any fun a => decide (q.level.toNat < a.level.toNat)

/-- What a cut-in does to the active cue, by the camera's state (R75); the cut cue is already at the head. -/
def cutActive (c : Cam) (s : State) : State :=
  match (s.cam c).state with
  | .fetching => takeHead c (endActive c .abandoned 0 (cancelWork (fetchOf c) s))
  | .waiting => takeHead c (endActive c .abandoned 0 s)
  | .moving => s.modCam c markAbandon
  | .halting => s.modCam c markAbandon
  | .halted => abandonMove c s
  | _ => s

/-- A move cue joins the queue: at the head when it cuts in, at the tail otherwise; a camera in IDLE takes it at once
(R71 check 4, R74, R48). -/
def joinQueue (c : Cam) (q : Cue) (s : State) : State :=
  if cutsIn (s.cam c) q then cutActive c (s.modCam c fun k => { k with queue := q :: k.queue })
  else takeHead c (s.modCam c fun k => { k with queue := k.queue ++ [q] })

/-- A posted GOTO that has passed the checks of R66 (R71). -/
def cueGoto (c : Cam) (tag : BitVec 8) (s : State) : State :=
  let k := s.cam c
  if k.state = .offline then refuseState c tag 1 s
  else if 63 < k.latches[0].value.toNat then recordResult c tag 1 .badArg k.latches[0].value s
  else if 4 ≤ k.queue.length then recordResult c tag 1 .queueFull 0 s
  else joinQueue c (moveCue .goto tag k.latches) s

/-- A posted RETURN that has passed the checks of R66; it does not check ARG (R71). -/
def cueReturn (c : Cam) (tag : BitVec 8) (s : State) : State :=
  let k := s.cam c
  if k.state = .offline then refuseState c tag 2 s
  else if 4 ≤ k.queue.length then recordResult c tag 2 .queueFull 0 s
  else joinQueue c (moveCue .ret tag k.latches) s

/-! Acting cues (R76 to R82) -/

/-- HALT (R76, R55, R57, R58). -/
def cueHalt (c : Cam) (tag : BitVec 8) (s : State) : State :=
  match (s.cam c).state with
  | .moving => cueDone c tag 3 0 (s.modCam c fun k => reformRate { k with halt := true, state := .halting })
  | .halting => cueDone c tag 3 0 s
  | .halted => cueDone c tag 3 0 s
  | _ => refuseState c tag 3 s

/-- An accepted RESUME: the stop latch and the halt mark are cleared, with what follows in each state (R77, R51, R57,
R58, R63). A KEEP_OUT of the try it leads to is recorded before the RESUME's DONE, and the next heads after it (R85;
log 20). -/
def acceptResume (c : Cam) (tag : BitVec 8) (s : State) : State :=
  let k := s.cam c
  let s := s.modCam c fun k => { k with stopLatch := false, halt := false }
  match k.state with
  | .waiting =>
    let s := s.modCam c fun k => { k with waitStop := false }
    let (s, ended) := if k.waitStop then reasonsChanged c s else (s, false)
    nextHead c (cueDone c tag 4 0 s, ended)
  | .halting => cueDone c tag 4 0 (s.modCam c fun k => reformRate { k with state := .moving })
  | .halted => cueDone c tag 4 0 (s.modCam c fun k => reformRate { k with state := .moving })
  | _ => cueDone c tag 4 0 s

/-- RESUME (R77). -/
def cueResume (c : Cam) (tag : BitVec 8) (s : State) : State :=
  let k := s.cam c
  if k.state = .offline ∨ k.state = .adopting ∨ (k.state = .halting ∧ k.abandon) then refuseState c tag 4 s
  else if s.lines.stop then recordResult c tag 4 .stopActive 0 s
  else acceptResume c tag s

/-- ABANDON (R78, R49, R53, R55, R57, R58): an active cue that ends at the post is recorded before the ABANDON's DONE, and
the next head is taken after it (R85). -/
def cueAbandon (c : Cam) (tag : BitVec 8) (s : State) : State :=
  match (s.cam c).state with
  | .fetching => takeHead c (cueDone c tag 5 0 (endActive c .abandoned 0 (cancelWork (fetchOf c) s)))
  | .waiting => takeHead c (cueDone c tag 5 0 (endActive c .abandoned 0 s))
  | .moving => cueDone c tag 5 0 (s.modCam c markAbandon)
  | .halting => cueDone c tag 5 0 (s.modCam c markAbandon)
  | .halted => takeHead c (cueDone c tag 5 0 (abandonCue c s))
  | _ => refuseState c tag 5 s

/-- The camera is in neither OFFLINE nor ADOPTING: the states that accept OVERRIDE, FLUSH and CAPTURE (R79 to R81). -/
def acceptsCues (k : Camera) : Bool := enabledState k.state

/-- OVERRIDE (R79, R31): ARG clamped to 1..256; RT is formed again while a move is active (R32). -/
def cueOverride (c : Cam) (tag : BitVec 8) (s : State) : State :=
  let k := s.cam c
  if !acceptsCues k then refuseState c tag 6 s
  else
    let arg := k.latches[0].value.toNat
    let v := clampNat 1 256 arg
    recordResult c tag 6 (if v = arg then .done else .doneClamped) (BitVec.ofNat 16 v)
      (s.modCam c fun k => reformRate { k with override := v })

/-- FLUSH (R80). -/
def cueFlush (c : Cam) (tag : BitVec 8) (s : State) : State :=
  let k := s.cam c
  if !acceptsCues k then refuseState c tag 7 s
  else cueDone c tag 7 (BitVec.ofNat 16 k.queue.length) (s.modCam c fun k => { k with queue := [] })

/-- The ramp a capture stores: the cue's, clamped to 0..32767, or the applied default ramp when it is 65535 (R93). -/
def captureRamp (k : Camera) : BitVec 16 :=
  if k.latches[2].value = 65535 then BitVec.ofNat 16 k.cfg.ramp
  else BitVec.ofNat 16 (clampNat 0 32767 k.latches[2].value.toNat)

/-- The capture request of a post: the setpoints of the present axes, the mask, the duration and the ramp of the moment
(R93). -/
def captureRequest (c : Cam) (tag : BitVec 8) (k : Camera) : ShotReq :=
  { cam := c, shot := k.latches[0].value.toNat, tag := tag
    work :=
      .capture (positionsOf fun a => if inMask k.cfg.mask a then k.setpoints[a] else 0) k.cfg.mask k.latches[1].value
        (captureRamp k) }

/-- CAPTURE (R81): accepted, it joins the FIFO and records no result. -/
def cueCapture (c : Cam) (tag : BitVec 8) (s : State) : State :=
  let k := s.cam c
  if !acceptsCues k then refuseState c tag 8 s
  else if 63 < k.latches[0].value.toNat then recordResult c tag 8 .badArg k.latches[0].value s
  else if (outstandingCapture c s).isSome then recordResult c tag 8 .busy 0 s
  else s.modShot fun e => { e with fifo := e.fifo ++ [captureRequest c tag k] }

/-- The camera's direct slots are to be filled: one pair for each present axis (R140). -/
def askFill (c : Cam) (s : State) : State :=
  match maskAxes (s.cam c).cfg.mask with
  | [] => s
  | axes => { s with setp := { s.setp with fills := s.setp.fills ++ [⟨c, axes⟩] } }

/-- The remaining fill writes of a camera are discarded (R140). -/
def dropFills (c : Cam) (s : State) : State :=
  { s with setp := { s.setp with fills := s.setp.fills.filter (·.cam != c) } }

/-- DIRECT (R62, R82, R140). -/
def cueDirect (c : Cam) (tag : BitVec 8) (s : State) : State :=
  match (s.cam c).state with
  | .idle =>
    cueDone c tag 9 0 (askFill c (s.modCam c fun k => { k with state := .direct, direct := some k.setpoints }))
  | _ => refuseState c tag 9 s

/-- RELEASE (R63, R82, R140). -/
def cueRelease (c : Cam) (tag : BitVec 8) (s : State) : State :=
  match (s.cam c).state with
  | .direct =>
    takeHead c
      (cueDone c tag 10 0 (dropFills c (s.modCam c fun k => { k with state := .idle, direct := none })))
  | _ => refuseState c tag 10 s

/-- ENABLE (R43, R82): no result at the post. -/
def cueEnable (c : Cam) (tag : BitVec 8) (s : State) : State :=
  match (s.cam c).state with
  | .offline =>
    let s := s.modCam c fun k =>
      { k with
        state := .adopting, stale := false
        adoption := some { tag := tag, taken := [], fault := false, stopSeen := false } }
    { s with adoptQueue := s.adoptQueue ++ [c] }
  | _ => refuseState c tag 11 s

/-- The owner is camera c's adoption. -/
def adoptionOwner (c : Cam) : Owner → Bool
  | .adoption d => d == c
  | _ => false

/-- The owner is camera c's write-out. -/
def writeOutOwner (c : Cam) : Owner → Bool
  | .writeOut d _ _ => d == c
  | _ => false

/-- DISABLE of a camera in ADOPTING (R45): the ENABLE ends ABANDONED, then the DISABLE ends DONE. It frees no cell, and the release
examination that R107 gives a DISABLE of any camera, "whether or not cells actually changed state", follows. -/
def disableAdopting (c : Cam) (tag : BitVec 8) (s : State) : State :=
  let k := s.cam c
  let s := (s.leaveAdoption c).orphanPort (adoptionOwner c)
  let s := s.modCam c fun k => { k with state := .offline, adoption := none, queue := [], cfg := emptyConfig }
  let s :=
    match k.adoption with
    | some ad => recordResult c ad.tag kindEnable .abandoned 0 s
    | none => s
  releaseExam (cueDone c tag 12 (BitVec.ofNat 16 k.queue.length) s)

/-- What camera c holds after a DISABLE (R64): the setpoints, the last plan, the override and CONFIG_STALE stand. -/
def disabledCamera (k : Camera) : Camera :=
  { k with
    state := .offline, halt := false, abandon := false, waitStop := false, waitTally := false, waitFloor := false
    onAir := false, stopLatch := false, cfg := emptyConfig, direct := none, queue := [], active := none, stack := []
    held := none, claim := none, waitCount := 0 }

/-- The outstanding capture of a disabled camera ends ABANDONED (R64, R81). -/
def abandonCapture (c : Cam) (s : State) : State :=
  match outstandingCapture c s with
  | some r => recordResult c r.tag kindCapture .abandoned 0 (cancelWork (captureOf c) s)
  | none => s

/-- DISABLE of an enabled camera (R64, R111). -/
def disableEnabled (c : Cam) (tag : BitVec 8) (s : State) : State :=
  let k := s.cam c
  let s := abandonCapture c (cancelWork (fetchOf c) s)
  let s := dropFills c (s.orphanPort (writeOutOwner c))
  let s := { s with setp := { s.setp with writeOuts := s.setp.writeOuts.filter (·.cam != c) } }
  let s := (s.freeOutside c none).modCam c disabledCamera
  releaseExam (cueDone c tag 12 (BitVec.ofNat 16 (k.queue.length + (if k.active.isSome then 1 else 0))) s)

/-- DISABLE (R82). -/
def cueDisable (c : Cam) (tag : BitVec 8) (s : State) : State :=
  match (s.cam c).state with
  | .offline => refuseState c tag 12 s
  | .adopting => disableAdopting c tag s
  | _ => disableEnabled c tag s

/-! The post (R66) -/

/-- The faulty words of a post: bit 0 for COMMAND, bit n for the latch of word n (R68). -/
def postFaults (k : Camera) (w : MWord) : BitVec 16 :=
  boolBits (n := 5) fun i => if h : i.val = 0 then !wordOk w else !(k.latches[i.val - 1]).good

/-- A cue that has passed the parity check, by its kind code (R66, R69, R70). -/
def judgeCue (c : Cam) (tag : BitVec 8) (kind : BitVec 4) (s : State) : State :=
  if kind = 1 then cueGoto c tag s
  else if kind = 2 then cueReturn c tag s
  else if kind = 3 then cueHalt c tag s
  else if kind = 4 then cueResume c tag s
  else if kind = 5 then cueAbandon c tag s
  else if kind = 6 then cueOverride c tag s
  else if kind = 7 then cueFlush c tag s
  else if kind = 8 then cueCapture c tag s
  else if kind = 9 then cueDirect c tag s
  else if kind = 10 then cueRelease c tag s
  else if kind = 11 then cueEnable c tag s
  else if kind = 12 then cueDisable c tag s
  else recordResult c tag kind .badKind 0 s

/-- The Cue Unit takes a post: the parity of COMMAND and of the four latches first, then the kind (R66, R68). -/
def takePost (c : Cam) (w : MWord) (s : State) : State :=
  let f := postFaults (s.cam c) w
  if f ≠ 0 then recordResult c (commandTag w.data) (commandKind w.data) .cueParity f s
  else judgeCue c (commandTag w.data) (commandKind w.data) s

end Sys2Proof.Machine
end

