-- ==== Sys2Proof/Machine/Reports.lean ====
section
/-! DEFINITION. What the Status Writer writes: the words of every item (R165 to R172, R175), the order of due items (R168),
and the due marks (R168, R169). -/

namespace Sys2Proof.Machine

/-- A count as one word. -/
def natWord (n : Nat) : BitVec 16 := BitVec.ofNat 16 n

/-- The two words of an unsigned pair, low half first. -/
def natPair (n : Nat) : List (BitVec 16) := [BitVec.ofNat 16 n, BitVec.ofNat 16 (n / 65536)]

/-- The two words of a signed pair, low half first. -/
def intPair (v : Int) : List (BitVec 16) := [lowHalf v, highHalf v]

/-! The device status block (R172) -/

/-- The line state word: bits 7..0 the on-air levels, bit 8 the stop line (R143, R172). -/
def lineStateWord (l : LineMonitor) : BitVec 16 :=
  boolBits (n := 9) fun i => if h : i.val < 8 then l.onAir[i.val] else l.stop

/-- The capture record's six words, 0x0060 to 0x0065 (R172). -/
def captureWords (e : ErrorRecord) : List (BitVec 16) :=
  [errCode e.cls, if e.own then 1 else 0, e.addr.extractLsb' 0 16, (e.addr.extractLsb' 16 8).setWidth 16, e.word.data,
    e.word.par.setWidth 16]

/-- The value a word of the device status block reports, by its offset; 0 in a word that holds no field (R164, R171,
R172). -/
def blockWord (s : State) (off : Nat) : BitVec 16 :=
  if off = 0x40 then s.stat.flags.setWidth 16
  else if off = 0x41 then s.stat.mask.setWidth 16
  else if off = 0x42 then 1
  else if off = 0x43 then lineStateWord s.lines
  else if off = 0x44 then syncCode s.timer.sync
  else if off = 0x46 then s.timer.frame.extractLsb' 0 16
  else if off = 0x47 then s.timer.frame.extractLsb' 16 16
  else if off = 0x48 then natWord s.timer.missed
  else if 0x50 ≤ off ∧ off < 0x58 then natWord s.fences[Fin.ofNat 8 (off - 0x50)].hits
  else if 0x60 ≤ off ∧ off < 0x66 then (captureWords s.stat.capture).getD (off - 0x60) 0
  else 0

/-! The camera status record (R169, R175) -/

/-- The camera marks word (R175). -/
def marksWord (k : Camera) : BitVec 16 :=
  boolBits (n := 9) fun i =>
    match i.val with
    | 0 => k.waitStop
    | 1 => k.waitTally
    | 2 => k.waitFloor
    | 4 => k.halt
    | 5 => k.abandon
    | 6 => k.stopLatch
    | 7 => k.onAir
    | 8 => k.stale
    | _ => false

/-- The active cue words: tag, kind, level and shot, 0 when there is none (R73, R175). -/
def activeWords (k : Camera) : List (BitVec 16) :=
  match k.active with
  | none => [0, 0, 0, 0]
  | some q =>
    [q.tag.setWidth 16, (moveKindCode q.kind).setWidth 16, q.level.setWidth 16, if q.kind = .goto then q.arg else 0]

/-- The queue tags, head to tail, 0 beyond the depth (R175). -/
def queueWords (k : Camera) : List (BitVec 16) :=
  (List.range 4).map fun i => (k.queue[i]?.map fun q => q.tag.setWidth 16).getD 0

/-- The held rectangle's four bounds and its presence, 0 when it is empty (R175). -/
def heldWords (k : Camera) : List (BitVec 16) :=
  match k.held with
  | none => [0, 0, 0, 0, 0]
  | some r => [natWord r.x0, natWord r.y0, natWord r.x1, natWord r.y1, 1]

/-- The words 1 to 62 of a status record (R175). -/
def recordBody (k : Camera) : List (BitVec 16) :=
  [camStateCode k.state, marksWord k, k.cfg.mask.setWidth 16]
    ++ activeWords k
    ++ [natWord k.plan.n, natWord k.plan.r]
    ++ natPair k.p ++ natPair k.q
    ++ [natWord k.rate, natWord k.rt, natWord k.plan.c, natWord k.override]
    ++ (List.finRange 7).flatMap (fun a => intPair k.setpoints[a])
    ++ [natWord k.queue.length]
    ++ queueWords k
    ++ [natWord k.stack.length]
    ++ [k.result.tag.setWidth 16, k.result.kind.setWidth 16, codeValue k.result.code, k.result.detail]
    ++ [k.resultCount, natWord k.blocked]
    ++ heldWords k
    ++ List.replicate 14 0

/-- The 64 words of a status record with sequence number n: SEQ_OPEN, the body, SEQ_CLOSE (R170, R175). -/
def recordWords (n : BitVec 16) (k : Camera) : List (BitVec 16) := [n] ++ recordBody k ++ [n]

/-! Due items (R168) -/

/-- The first cell whose floor image word is due, in cell order: row by row in y, along each row in x (R118). -/
def firstDueCell (g : Grid Bool) : Option (Fin 32 × Fin 32) :=
  (List.finRange 32).findSome? fun y => ((List.finRange 32).find? fun x => gridAt g x y).map fun x => (x, y)

/-- The first due item, in the order of R168. -/
def firstDue (w : StatusWriter) : Option StatusItem :=
  if w.flagsDue then some .flags
  else if w.captureDue then some .capture
  else if w.lineDue then some .lineState
  else if w.syncDue then some .syncGroup
  else if w.missedDue then some .missed
  else
    ((List.finRange 8).find? fun n => w.hitsDue[n]).map StatusItem.hits
    <|> (if w.probeDue then some .probe else none)
    <|> ((List.finRange 16).find? fun z => w.zoneDue[z]).map StatusItem.zone
    <|> ((List.finRange 8).find? fun c => w.recordDue[c]).map StatusItem.record
    <|> (firstDueCell w.cellDue).map fun p => StatusItem.cell p.1 p.2

/-- Set or clear the due mark of an item (R168). -/
def markItem (i : StatusItem) (due : Bool) (w : StatusWriter) : StatusWriter :=
  match i with
  | .flags => { w with flagsDue := due }
  | .capture => { w with captureDue := due }
  | .lineState => { w with lineDue := due }
  | .syncGroup => { w with syncDue := due }
  | .missed => { w with missedDue := due }
  | .hits n => { w with hitsDue := w.hitsDue.set n due }
  | .probe => { w with probeDue := due }
  | .zone z => { w with zoneDue := w.zoneDue.set z due }
  | .record c => { w with recordDue := w.recordDue.set c due }
  | .cell x y => { w with cellDue := w.cellDue.set y (w.cellDue[y].set x due) }

/-- The due mark of an item (R168). -/
def itemDue (i : StatusItem) (w : StatusWriter) : Bool :=
  match i with
  | .flags => w.flagsDue
  | .capture => w.captureDue
  | .lineState => w.lineDue
  | .syncGroup => w.syncDue
  | .missed => w.missedDue
  | .hits n => w.hitsDue[n]
  | .probe => w.probeDue
  | .zone z => w.zoneDue[z]
  | .record c => w.recordDue[c]
  | .cell x y => gridAt w.cellDue x y

/-- The words an item is written as, with their offsets, taken at the grant of its first write (R168). A status record is
written with the sequence number the writer holds at that moment (R170). -/
def itemWords (s : State) : StatusItem → List (Offset × BitVec 16)
  | .flags => [(0x40, blockWord s 0x40)]
  | .capture => (List.range 6).map fun i => (BitVec.ofNat 16 (0x60 + i), blockWord s (0x60 + i))
  | .lineState => [(0x43, blockWord s 0x43)]
  | .syncGroup => [(0x44, blockWord s 0x44), (0x46, blockWord s 0x46), (0x47, blockWord s 0x47)]
  | .missed => [(0x48, blockWord s 0x48)]
  | .hits n => [(hitsOff n, blockWord s (0x50 + n.val))]
  | .probe => [(0xC2, s.stat.probe)]
  | .zone z => [(zoneOff z 5, zoneCode s.floor.zones[z].status)]
  | .record c =>
    (List.range 64).map fun i => (recordOff c i, (recordWords s.stat.seq[c] (s.cam c)).getD i 0)
  | .cell x y => [(cellOff x y, cellCode (gridAt s.floor.cells x y))]

/-- The sequence number of camera c's record is raised by one (R170). -/
def raiseSeq (c : Cam) (w : StatusWriter) : StatusWriter := { w with seq := w.seq.set c (w.seq[c] + 1) }

/-- The writer takes up an item: its due mark is cleared, and the sequence number of a status record is raised (R168,
R170). -/
def takeItem (i : StatusItem) (w : StatusWriter) : StatusWriter :=
  match i with
  | .record c => raiseSeq c (markItem i false w)
  | _ => markItem i false w

/-! Due marks of status records (R169) -/

/-- What a status record reports at every change, as R169 lists it. The return stack stands for its depth and for a push
onto a full stack (log 27). A change of a plan value or a setpoint alone marks nothing due, not even while the record is being written: DESIGN
CHOICE (R168, R169; log 38). -/
def reported (k : Camera) : List (BitVec 16) × List Positions × Option Cue × List Cue :=
  ([camStateCode k.state, marksWord k, k.cfg.mask.setWidth 16, k.resultCount, natWord k.blocked] ++ heldWords k,
    k.stack, k.active, k.queue)

/-- The status record of each camera whose report changed between two states is marked due (R169). -/
def markRecords (old new : State) : State :=
  new.modStat fun w =>
    { w with
      recordDue := Vector.ofFn fun c => w.recordDue[c] || (reported (old.cam c) != reported (new.cam c)) }

end Sys2Proof.Machine
end

