-- ==== Sys2Proof/Machine/Arbiter.lean ====
section
/-! DEFINITION. The Memory Port Arbiter (R161): what each requester asks for, the grant to it, and the rule that chooses. A
requester's next access is worked out from its own state; a grant answers the state after it. -/

namespace Sys2Proof.Machine

/-- The port is granted to an own requester. -/
def grantOwn (o : Owner) (a : Addr) (w second : Option MWord) (s : State) : State :=
  { s with
    port := { s.port with cur := some { owner := o, addr := a, write := w, second := second, live := true }, lastOwn := true } }

/-! The Setpoint Writer (R133, R134, R140) -/

/-- The control word: VALID, the active bank, and the low 14 bits of the frame counter (R134, R176). -/
def controlWord (bank : Bank) (frame : BitVec 32) : BitVec 16 :=
  1#1 ++ ((match bank with | .a => 0#1 | .b => 1#1) ++ frame.extractLsb' 0 14)

/-- The frame word a bank starts at: 1 for A, 17 for B (R176). -/
def bankStart : Bank → Nat
  | .a => 1
  | .b => 17

/-- The n-th word of a write-out: the sixteen words of its bank, then the control word (R134). -/
def writeOutWord (w : WriteOut) (n : Nat) : Nat × BitVec 16 :=
  if n = 0 then (bankStart w.bank, w.frame.extractLsb' 0 16)
  else if n = 1 then (bankStart w.bank + 1, w.frame.extractLsb' 16 16)
  else if n < 16 then
    let v := w.values[Fin.ofNat 7 ((n - 2) / 2)]
    (bankStart w.bank + n, if n % 2 = 0 then lowHalf v else highHalf v)
  else (0, controlWord w.bank w.frame)

/-- The next write of a write-out is granted. -/
def grantWriteOut (w : WriteOut) (rest : List WriteOut) (s : State) : State :=
  let (k, d) := writeOutWord w w.granted
  let s := { s with setp := { s.setp with writeOuts := { w with granted := w.granted + 1 } :: rest } }
  grantOwn (.writeOut w.cam w.bank (decide (16 ≤ w.granted))) (addrOf s.base (frameOff w.cam k)) (some (goodWord d)) none s

/-- The next pair of a fill is granted: the axis's direct target as it stands now, both halves under one grant (R140). -/
def grantFill (f : Fill) (a : Axis) (axes : List Axis) (rest : List Fill) (s : State) : State :=
  let k := s.cam f.cam
  let v := (k.direct.getD k.setpoints)[a]
  let s := { s with setp := { s.setp with fills := if axes = [] then rest else { f with axes := axes } :: rest } }
  grantOwn (.fill f.cam) (addrOf s.base (frameOff f.cam (48 + 2 * a.val))) (some (goodWord (lowHalf v)))
    (some (goodWord (highHalf v))) s

/-- The grant of the first fill, none when no fill is asked for. -/
def grantFirstFill (s : State) : Option State :=
  match s.setp.fills with
  | ⟨c, a :: axes⟩ :: rest => some (grantFill ⟨c, a :: axes⟩ a axes rest s)
  | _ => none

/-- The Setpoint Writer's grant: the write-out under way first, then fills, then the next write-out (R133, R140). -/
def grantSetpoint (s : State) : Option State :=
  match s.setp.writeOuts with
  | w :: rest =>
    if 0 < w.granted then some (grantWriteOut w rest s)
    else grantFirstFill s <|> some (grantWriteOut w rest s)
  | [] => grantFirstFill s

/-! The Shot Engine (R89, R90, R94) -/

/-- The Shot Engine's grant: the next access of the operation in flight. -/
def grantShot (s : State) : Option State :=
  s.shot.op.map fun op =>
    match op.req.work with
    | .fetch =>
      grantOwn .fetch (addrOf s.base (shotOff op.req.cam op.req.shot (fetchWord op.words.length))) none none s
    | .capture values mask duration ramp =>
      let (k, d) := captureWord values mask duration ramp op.written
      grantOwn .capture (addrOf s.base (shotOff op.req.cam op.req.shot k)) (some (goodWord d)) none s

/-! The adoption and start-up accesses (R44, R164) -/

/-- The number of reads of the load's first phase: 13 settings, 40 fence words, 80 zone words (R164). -/
def loadReads : Nat := 133

/-- The number of writes of its second phase: 64 block words and the probe result, 8 records of 64 words, 16 zone STATUS words, 1,024
floor image words (R164). -/
def loadWrites : Nat := 1617

/-- The offset of the load's n-th read (R164, R172, R173). -/
def loadReadOff (n : Nat) : Offset :=
  if n < 13 then BitVec.ofNat 16 n
  else if n < 53 then fenceOff (Fin.ofNat 8 ((n - 13) / 5)) ((n - 13) % 5)
  else zoneOff (Fin.ofNat 16 ((n - 53) / 5)) ((n - 53) % 5)

/-- The item a word of the device status block belongs to, and whether it is the item's first word; none for the mask word,
the ready word and the words that hold no field. -/
def blockItem (off : Nat) : Option (StatusItem × Bool) :=
  if off = 0x40 then some (.flags, true)
  else if off = 0x43 then some (.lineState, true)
  else if off = 0x44 then some (.syncGroup, true)
  else if off = 0x46 ∨ off = 0x47 then some (.syncGroup, false)
  else if off = 0x48 then some (.missed, true)
  else if 0x50 ≤ off ∧ off < 0x58 then some (.hits (Fin.ofNat 8 (off - 0x50)), true)
  else if 0x60 ≤ off ∧ off < 0x66 then some (.capture, decide (off = 0x60))
  else none

/-- The item the load's n-th write belongs to, and whether the write is its first (R164). -/
def loadItem (n : Nat) : Option (StatusItem × Bool) :=
  if n < 64 then blockItem (0x40 + n)
  else if n = 64 then some (.probe, true)
  else if n < 577 then some (.record (Fin.ofNat 8 ((n - 65) / 64)), decide ((n - 65) % 64 = 0))
  else if n < 593 then some (.zone (Fin.ofNat 16 (n - 577)), true)
  else some (.cell (Fin.ofNat 32 ((n - 593) % 32)) (Fin.ofNat 32 ((n - 593) / 32)), true)

/-- The offset and value of the load's n-th write (R164). R164 orders only its four steps; that the words of the first are written in
ascending offset, the probe result last (log 15), and those of the others in camera, entry and cell order is the model's: DESIGN CHOICE
(log 37). -/
def loadWord (s : State) (n : Nat) : Offset × BitVec 16 :=
  if n < 64 then (BitVec.ofNat 16 (0x40 + n), blockWord s (0x40 + n))
  else if n = 64 then (0xC2, s.stat.probe)
  else if n < 577 then
    let c := Fin.ofNat 8 ((n - 65) / 64)
    (recordOff c ((n - 65) % 64), (recordWords s.stat.seq[c] (s.cam c)).getD ((n - 65) % 64) 0)
  else if n < 593 then
    (zoneOff (Fin.ofNat 16 (n - 577)) 5, zoneCode s.floor.zones[Fin.ofNat 16 (n - 577)].status)
  else
    let x := Fin.ofNat 32 ((n - 593) % 32)
    let y := Fin.ofNat 32 ((n - 593) / 32)
    (cellOff x y, cellCode (gridAt s.floor.cells x y))

/-- The load's n-th write is granted: the first write of an item takes the item up, as a write of the Status Writer does
(R168). -/
def grantLoadWrite (n : Nat) (s : State) : State :=
  let s :=
    match loadItem n with
    | some (i, true) => s.modStat (takeItem i)
    | _ => s
  let (off, d) := loadWord s n
  grantOwn (.startupWrite n) (addrOf s.base off) (some (goodWord d)) none s

/-- The next read of the first adoption of the rank (R44). -/
def grantAdoption (s : State) : Option State :=
  match s.adoptQueue with
  | [] => none
  | c :: _ =>
    match (s.cam c).adoption with
    | none => none
    | some ad => (adoptNext c ad.taken).map fun off => grantOwn (.adoption c) (addrOf s.base off) none none s

/-- The grant at the rank of the adoption and start-up accesses. -/
def grantAdopt (s : State) : Option State :=
  match s.startup with
  | .inReset => none
  | .reading n => some (grantOwn (.startupRead n) (addrOf s.base (loadReadOff n)) none none s)
  | .writing n => some (grantLoadWrite n s)
  | .running => grantAdoption s

/-! The Status Writer (R168) -/

/-- One write of an item is granted, the words after it staying for the next grants. -/
def grantItemWord (i : StatusItem) (a : Addr) (d : BitVec 16) (rest : List (Addr × BitVec 16)) (s : State) : State :=
  grantOwn (.status i) a (some (goodWord d)) none (s.modStat fun w => { w with rest := rest, item := some i })

/-- The Status Writer's grant: the rest of a group to its end, then the first due item (R168). It writes nothing until the
load has ended (R164). -/
def grantStatus (s : State) : Option State :=
  if s.startup ≠ .running then none
  else
    match s.stat.rest, s.stat.item with
    | (a, d) :: rest, some i => some (grantItemWord i a d rest s)
    | _, _ =>
      match firstDue s.stat with
      | none => none
      | some i =>
        let s := s.modStat (takeItem i)
        match (itemWords s i).map fun p => (addrOf s.base p.1, p.2) with
        | [] => none
        | (a, d) :: rest => some (grantItemWord i a d rest s)

/-! The host, and the rule (R161) -/

/-- The grant of the host access that waits. -/
def grantHost (s : State) : Option State :=
  s.bus.req.map fun a =>
    { s with bus := { s.bus with req := none }, port := { s.port with cur := some a, lastOwn := false } }

/-- The grants the own requesters ask for, highest rank first. -/
def ownGrants (s : State) : List State :=
  [grantSetpoint s, grantShot s, grantAdopt s, grantStatus s].filterMap id

/-- Requests that reached a free port together: any one is granted first (R161); the free value picks (log 10). -/
def pickGrant (s : State) (grants : List State) : State :=
  match grants with
  | [] => s
  | [t] => t
  | _ =>
    let t := grants.getD (Config.arbiterPick s.port.picks % grants.length) s
    { t with port := { t.port with picks := s.port.picks + 1 } }

/-- The rule for requests that wait when the port frees: the host after an own grant, else the highest own requester, else
the host (R161). -/
def ruleGrant (s : State) : State :=
  match grantHost s, ownGrants s with
  | some t, own => if s.port.lastOwn then t else own.head?.getD t
  | none, own => own.head?.getD s

/-- The grant at the end of an event. `wasFree`: the port was free before the event, so that every request now made reached
it together. -/
def arbitrate (wasFree : Bool) (s : State) : State :=
  if s.port.cur.isSome then s
  else if wasFree then pickGrant s (ownGrants s ++ (grantHost s).toList)
  else ruleGrant s

end Sys2Proof.Machine
end

