-- ==== Sys2Proof/Machine/Zones.lean ====
section
/-! DEFINITION. Zones: latched bounds, application and removal (R113 to R117). -/

namespace Sys2Proof.Machine

/-- Change zone entry z. -/
def State.modZone (s : State) (z : Fin 16) (f : Zone → Zone) : State :=
  { s with floor := { s.floor with zones := s.floor.zones.set z (f s.floor.zones[z]) } }

/-- The status of entry z becomes st; a change makes its STATUS word due (R117). -/
def State.zoneStatus (s : State) (z : Fin 16) (st : ZoneStatus) (applied : Option Rect) : State :=
  let changed := s.floor.zones[z].status != st
  (s.modZone z fun e => { e with status := st, applied := applied }).modStat fun w =>
    { w with zoneDue := w.zoneDue.set z (w.zoneDue[z] || changed) }

/-- A bound word of entry z is taken when its parity is good (R113). -/
def takeBound (z : Fin 16) (k : Fin 4) (w : MWord) (s : State) : State :=
  if wordOk w then s.modZone z fun e => { e with bounds := e.bounds.set k (zoneBoundOf w.data) } else s

/-- The rectangle of the latched bounds, each direction from the smaller to the larger (R114). -/
def zoneRect (e : Zone) : Rect :=
  { x0 := Nat.min e.bounds[0] e.bounds[2], x1 := Nat.max e.bounds[0] e.bounds[2]
    y0 := Nat.min e.bounds[1] e.bounds[3], y1 := Nat.max e.bounds[1] e.bounds[3] }

/-- The cell is HELD by some camera. -/
def isHeld : Cell → Bool
  | .held _ => true
  | _ => false

/-- A request to apply entry z (R114). -/
def applyZone (z : Fin 16) (s : State) : State :=
  if s.floor.zones[z].status = .active then s
  else
    let r := zoneRect s.floor.zones[z]
    if anyCell s.floor r isHeld then (s.zoneStatus z .refusedHeld none).flag flagZoneRefused
    else
      (s.paint fun x y v => if inRect r x y && v == .free then .blocked else v).zoneStatus z .active (some r)

/-- The cell lies in the applied rectangle of an ACTIVE entry other than z. -/
def otherZone (f : FloorMap) (z : Fin 16) (x y : Fin 32) : Bool :=
  (List.finRange 16).any fun i =>
    i != z && f.zones[i].status == .active && (f.zones[i].applied.any (inRect · x y))

/-- A request to remove entry z (R116): an ACTIVE entry's cells that lie in no other ACTIVE entry become FREE, and the
release examination follows. -/
def removeZone (z : Fin 16) (s : State) : State :=
  match s.floor.zones[z].status with
  | .inactive => s
  | .refusedHeld => s.zoneStatus z .inactive none
  | .active =>
    let freed := s.paint fun x y v =>
      if s.floor.zones[z].applied.any (inRect · x y) && !otherZone s.floor z x y && v == .blocked then .free else v
    releaseExam (freed.zoneStatus z .inactive none)

/-- An ENABLE write taken at its completion: bad parity is not taken; bit 0 asks for the zone to be applied or removed,
bits 15..1 are ignored (R114, R116). -/
def takeEnable (z : Fin 16) (w : MWord) (s : State) : State :=
  if !wordOk w then s else if w.data[0] then applyZone z s else removeZone z s

end Sys2Proof.Machine
end

