-- ==== Sys2Proof/Machine/Interposer.lean ====
section
/-! DEFINITION. The Bus Interposer: decode and classes (R150 to R152), fences (R153 to R155), the probe (R156), pair staging
(R157, R158), parity (R159, R160), and the end of a host access. -/

namespace Sys2Proof.Machine

/-- Change the host side of the Interposer. -/
def State.modBus (s : State) (f : HostBus → HostBus) : State := { s with bus := f s.bus }

/-- A host access ends, by HBERRn (`berr`) or by HRDY (R151). -/
def State.endHost (s : State) (a : Addr) (isWrite berr : Bool) (w : MWord) : State :=
  s.modBus fun b => { b with ended := some { addr := a, isWrite := isWrite, berr := berr, word := w } }

/-- A refused access ends with a bus error at once and sets FENCE_HIT; a refused read returns 0x0000 with good parity
(R151). -/
def refuseAccess (x : HostAccess) (s : State) : State :=
  (s.flag flagFenceHit).endHost x.addr x.write.isSome true (x.write.getD (goodWord 0))

/-- The access is forwarded to the arbiter: a read, a word, or a pair under one grant (R151, R157). -/
def forward (a : Addr) (w second : Option MWord) (e : OnEnd) (s : State) : State :=
  s.modBus fun b =>
    { b with req := some { owner := .host e false, addr := a, write := w, second := second, live := true } }

/-! Fences (R153 to R155) -/

/-- Change fence entry n. -/
def State.modFence (s : State) (n : Fin 8) (f : Fence → Fence) : State :=
  { s with fences := s.fences.set n (f s.fences[n]) }

/-- The address and the entry's base agree in every bit that is 1 in its mask (R154). -/
def fenceMatch (f : Fence) (a : Addr) : Bool := (a ^^^ f.base) &&& f.mask == 0

/-- The access is a hit on the entry (R154). -/
def fenceHit (f : Fence) (a : Addr) (isWrite : Bool) : Bool :=
  fenceMatch f a && (f.mode == .fullGuard || (f.mode == .writeGuard && isWrite))

/-- A hit raises the entry's counter, which stays at 255 (R155). -/
def countHit (f : Fence) : Fence := { f with hits := Nat.min 255 (f.hits + 1) }

/-- The hit counters become those of the new entries; each change makes its word due (R155). -/
def State.setFences (s : State) (fs : Vector Fence 8) : State :=
  { s with
    fences := fs
    stat := { s.stat with hitsDue := Vector.ofFn fun n => s.stat.hitsDue[n] || (fs[n].hits != s.fences[n].hits) } }

/-- An outside access is judged against all eight entries at its decode (R154). -/
def outsideAccess (x : HostAccess) (s : State) : State :=
  let hit := fun n : Fin 8 => fenceHit s.fences[n] x.addr x.write.isSome
  if (List.finRange 8).any hit then
    refuseAccess x (s.setFences (Vector.ofFn fun n => if hit n then countHit s.fences[n] else s.fences[n]))
  else forward x.addr x.write none .nothing s

/-- A BASE or MASK word replaces that half of the latched value; the high half gives bits 23..16 (R153). -/
def setBound (k : Fin 4) (d : BitVec 16) (f : Fence) : Fence :=
  match k with
  | 0 => { f with base := f.base.extractLsb' 16 8 ++ d }
  | 1 => { f with base := d.extractLsb' 0 8 ++ f.base.extractLsb' 0 16 }
  | 2 => { f with mask := f.mask.extractLsb' 16 8 ++ d }
  | 3 => { f with mask := d.extractLsb' 0 8 ++ f.mask.extractLsb' 0 16 }

/-- A fence MODE word is taken at its completion when its parity is good (R153). -/
def takeMode (n : Fin 8) (w : MWord) (s : State) : State :=
  if wordOk w then s.modFence n fun f => { f with mode := fenceModeOf w.data } else s

/-! The probe (R156) -/

/-- The probe result for an address: the matching entries and the area code. -/
def probeResult (s : State) (a : Addr) : BitVec 16 :=
  let area := match offsetOf s.base a with | some off => areaCode off | none => 0
  BitVec.ofNat 8 area ++ (boolBits fun n : Fin 8 => fenceMatch s.fences[n] a).extractLsb' 0 8

/-- The probe pair is taken: a good pair forms the result, and the pair reaches memory unchanged with fresh parity, poisoned
when either half was bad (R156, R160). -/
def takeProbe (st : Staged) (hi : MWord) (s : State) : State :=
  let ok := wordOk st.word && wordOk hi
  let s := s.modBus fun b => { b with staging := none }
  let s :=
    if ok then s.modStat fun w => { w with probe := probeResult s (pairAddr st.word.data hi.data), probeDue := true } else s
  forward st.addr (some (alteredWord ok st.word.data)) (some (alteredWord ok hi.data)) .nothing s

/-! Direct slots (R138, R139, R157) -/

/-- The state and axis refuse host writes to the slot: FLOOR_X or FLOOR_Y of a ROAMING camera in DIRECT (R139). -/
def slotRefused (k : Camera) (a : Axis) : Bool :=
  k.state == .direct && isRoaming k && (a == floorX || a == floorY)

/-- The slot is staged: a present axis of an enabled camera (R138). -/
def slotStaged (k : Camera) (a : Axis) : Bool := enabledState k.state && inMask k.cfg.mask a

/-- The camera's blocked-write count rises (R137). -/
def State.blockedWrite (s : State) (c : Cam) : State := s.modCam c countBlocked

/-- A word is held in the staging latch and its access ends with HRDY without reaching memory (R157). -/
def holdLow (p : StagedPair) (a : Addr) (w : MWord) (s : State) : State :=
  (s.modBus fun b => { b with staging := some { pair := p, addr := a, word := w } }).endHost a true false w

/-- A direct slot pair is taken: clamped to the soft limits, it reaches memory as one pair, and in DIRECT a good pair becomes
the direct target (R138, R157, R160). -/
def takeSlot (c : Cam) (a : Axis) (st : Staged) (hi : MWord) (s : State) : State :=
  let ok := wordOk st.word && wordOk hi
  let k := s.cam c
  let v := clampInt k.cfg.axes[a].min k.cfg.axes[a].max (pairInt st.word.data hi.data)
  let s := s.modBus fun b => { b with staging := none }
  let s :=
    if ok && k.state == .direct then
      s.modCam c fun k => { k with direct := k.direct.map fun t => t.set a v }
    else s
  forward st.addr (some (alteredWord ok (lowHalf v))) (some (alteredWord ok (highHalf v))) .nothing s

/-- A host write to half of the direct slot of axis a of camera c (R138, R139, R157). -/
def writeSlot (c : Cam) (a : Axis) (high : Bool) (x : HostAccess) (w : MWord) (s : State) : State :=
  let k := s.cam c
  if slotRefused k a then refuseAccess x (s.blockedWrite c)
  else if !slotStaged k a then
    match high, s.bus.staging with
    | true, some st =>
      forward st.addr (some st.word) (some w) .nothing (s.modBus fun b => { b with staging := none })
    | _, _ => forward x.addr (some w) none .nothing s
  else if high then
    match s.bus.staging with
    | some st => takeSlot c a st w s
    | none => forward x.addr (some w) none .nothing (s.blockedWrite c)
  else holdLow (.slot c a) x.addr w s

/-! Region writes (R152) -/

/-- A host write to the flags word (R165, R160). A word of bad parity has been handed on first (decodeHost), so the flags forwarded
poisoned hold the PARITY_FAULT that this very word raised: DESIGN CHOICE (log 21). -/
def writeFlags (x : HostAccess) (w : MWord) (s : State) : State :=
  let s := if wordOk w then s.modStat (clearFlags (w.data.extractLsb' 0 12)) else s
  forward x.addr (some (alteredWord (wordOk w) (s.stat.flags.setWidth 16))) none .nothing s

/-- A host write to the mask word (R166). -/
def writeMask (x : HostAccess) (w : MWord) (s : State) : State :=
  let s := if wordOk w then s.modStat fun t => { t with mask := w.data.extractLsb' 0 12 } else s
  forward x.addr (some w) none .nothing s

/-- A host write to the capture clear word (R167, R160). A word of bad parity has been handed on first (decodeHost), so the class
forwarded poisoned is the one after this very word was captured: DESIGN CHOICE (log 21). -/
def writeCaptureClear (x : HostAccess) (w : MWord) (s : State) : State :=
  let s := if wordOk w then s.modStat clearCapture else s
  forward x.addr (some (alteredWord (wordOk w) (errCode s.stat.capture.cls))) none .nothing s

/-- The missed-frame counter takes a value; a change makes its word due (R129). -/
def State.setMissed (s : State) (n : Nat) : State :=
  { s with
    timer := { s.timer with missed := n }
    stat := { s.stat with missedDue := s.stat.missedDue || (n != s.timer.missed) } }

/-- A host write to the missed-frame counter word (R129, R160). -/
def writeMissed (x : HostAccess) (w : MWord) (s : State) : State :=
  let s := if wordOk w then s.setMissed 0 else s
  forward x.addr (some (alteredWord (wordOk w) (natWord s.timer.missed))) none .nothing s

/-- A host write to the hit counter word of entry n (R155, R160). -/
def writeHits (n : Fin 8) (x : HostAccess) (w : MWord) (s : State) : State :=
  let s := if wordOk w then s.setFences (s.fences.set n { s.fences[n] with hits := 0 }) else s
  forward x.addr (some (alteredWord (wordOk w) (natWord s.fences[n].hits))) none .nothing s

/-- A host write to a BASE or MASK word of entry n, taken at its decode when its parity is good (R153). -/
def writeFenceBound (n : Fin 8) (k : Fin 4) (x : HostAccess) (w : MWord) (s : State) : State :=
  let s := if wordOk w then s.modFence n (setBound k w.data) else s
  forward x.addr (some w) none .nothing s

/-- A host write to mailbox word 1 + k of camera c, taken at its decode with its parity mark (R65). -/
def writeLatch (c : Cam) (k : Fin 4) (x : HostAccess) (w : MWord) (s : State) : State :=
  forward x.addr (some w) none .nothing
    (s.modCam c fun m => { m with latches := m.latches.set k ⟨w.data, wordOk w⟩ })

/-- A host write to camera c's config block sets CONFIG_STALE while the camera is ADOPTING or enabled (R15). -/
def writeConfig (c : Cam) (x : HostAccess) (w : MWord) (s : State) : State :=
  forward x.addr (some w) none .nothing
    (s.modCam c fun k => { k with stale := k.stale || k.state != .offline })

/-- A host write to the high half of the probe pair (R156, R157). -/
def writeProbeHigh (x : HostAccess) (w : MWord) (s : State) : State :=
  match s.bus.staging with
  | some st => takeProbe st w s
  | none => forward x.addr (some w) none .nothing s

/-- A host write of the word w to the region word at offset off (R152). A held low half has been dealt with: the latch is
empty, or this is the high half of its pair. -/
def regionWrite (off : Nat) (x : HostAccess) (w : MWord) (s : State) : State :=
  match regionWord off with
  | .pass => forward x.addr (some w) none .nothing s
  | .refuse => refuseAccess x s
  | .flags => writeFlags x w s
  | .mask => writeMask x w s
  | .captureClear => writeCaptureClear x w s
  | .missed => writeMissed x w s
  | .hits n => writeHits n x w s
  | .fenceBound n k => writeFenceBound n k x w s
  | .fenceMode n => forward x.addr (some w) none (.fenceMode n) s
  | .probeLow => holdLow .probe x.addr w s
  | .probeHigh => writeProbeHigh x w s
  | .zoneBound z k => forward x.addr (some w) none .nothing (takeBound z k w s)
  | .zoneEnable z => forward x.addr (some w) none (.zoneEnable z) s
  | .command c => forward x.addr (some w) none (.post c) s
  | .latch c k => writeLatch c k x w s
  | .config c => writeConfig c x w s
  | .frame c => refuseAccess x (s.blockedWrite c)
  | .slot c a high => writeSlot c a high x w s
  | .shot => forward x.addr (some w) none .nothing (shotOverlap off s)

/-- The access is classed and takes its course (R151, R152, R154). -/
def classify (x : HostAccess) (s : State) : State :=
  match offsetOf s.base x.addr with
  | none => outsideAccess x s
  | some off =>
    match x.write with
    | none => forward x.addr none none .nothing s
    | some w => regionWrite off x w s

/-! Decode and interruption (R157 to R159) -/

/-- The access is a write to the high half of the held pair, and its class does not refuse it (R157). -/
def completesPair (st : Staged) (x : HostAccess) (s : State) : Bool :=
  x.write.isSome && x.addr == st.addr + 1 &&
    (match st.pair with
      | .probe => true
      | .slot c a => !slotRefused (s.cam c) a)

/-- A held direct slot half that is interrupted counts in its camera's blocked-write count; a held probe half counts in none
(R158). -/
def countInterruption (p : StagedPair) (s : State) : State :=
  match p with
  | .probe => s
  | .slot c _ => s.blockedWrite c

/-- A host write word of bad parity is handed on as PASS_PARITY, host side, whatever the class of its write (R159). -/
def testHostWord (x : HostAccess) (s : State) : State :=
  match x.write with
  | some w => if wordOk w then s else s.error .passParity false x.addr w
  | none => s

/-- A host access is decoded (R151, R157 to R159): its word is tested and a fault handed on, and then it is classed. An interrupted
low half is forwarded unaltered as a host write of its own, and the access waits for its end to be classed (R158). Three points the
spec leaves open are settled here. The word is tested before its class acts, so a poisoned flags word or capture class shows the fault
of its own write (R160, R165, R167; log 21). The parity of an interrupting access is tested at its decode and its class judged at the
later classing (log 28). What an owner takes "at the decode", an overlap with the shot store among it (R91, R95), an interrupting access
brings at that later classing too (log 33). -/
def decodeHost (x : HostAccess) (s : State) : State :=
  let s := testHostWord x s
  match s.bus.staging with
  | none => classify x s
  | some st =>
    if completesPair st x s then classify x s
    else
      (countInterruption st.pair s).modBus fun b =>
        { b with
          staging := none, held := some x
          req := some { owner := .host .nothing true, addr := st.addr, write := some st.word, second := none, live := true } }

/-- The owner is the host. -/
def hostOwner : Owner → Bool
  | .host _ _ => true
  | _ => false

/-- A host access is under way: withheld, waiting at the arbiter, or at the port (R151). -/
def hostBusy (s : State) : Bool :=
  s.bus.held.isSome || s.bus.req.isSome || (s.port.cur.any fun a => hostOwner a.owner)

/-- The accesses presented are decoded one at a time, each after the last has ended; those that must wait stay presented
(R151). -/
def serveHost : List HostAccess → State → State
  | [], s => s
  | x :: rest, s =>
    if hostBusy s then s.modBus fun b => { b with queue := x :: rest } else serveHost rest (decodeHost x s)

/-- The host's turn; from RESETn until the load has ended no access is decoded (R151). -/
def pumpHost (s : State) : State :=
  if s.startup = .running then serveHost s.bus.queue (s.modBus fun b => { b with queue := [] }) else s

/-- The host presents an access. It is decoded at once when the host is free and no earlier access waits (R151). -/
def present (x : HostAccess) (s : State) : State := pumpHost (s.modBus fun b => { b with queue := b.queue ++ [x] })

/-- The host presents a write of a region word, its address formed with the base held now. Between RESET_ASSERT and RESET_RELEASE no base
has been sampled, and the address is formed with base 0: DESIGN CHOICE (R150; log 35). -/
def presentAt (off : Offset) (w : MWord) (s : State) : State := present ⟨addrOf s.base off, some w⟩ s

/-! The end of a host access (R151, R162) -/

/-- What the owner of a watched word takes when the write ends at memory (R66, R114, R153). -/
def takeOnEnd (e : OnEnd) (w : MWord) (s : State) : State :=
  match e with
  | .nothing => s
  | .post c => takePost c w s
  | .zoneEnable z => takeEnable z w s
  | .fenceMode n => takeMode n w s

/-- The interrupted low half's write has ended: the interrupting access is classed (R158). -/
def resumeHeld (s : State) : State :=
  match s.bus.held with
  | some x => classify x (s.modBus fun b => { b with held := none })
  | none => s

/-- The host access `a` has ended at memory and the port is free; `w` is the word read or written. A word read is tested for
parity (R159). -/
def hostEnded (a : Access) (e : OnEnd) (phantom : Bool) (w : MWord) (s : State) : State :=
  if phantom then resumeHeld s
  else
    let s := if a.write.isNone && !wordOk w then s.error .passParity false a.addr w else s
    takeOnEnd e w (s.endHost a.addr a.write.isSome false w)

/-- The host access `a` has timed out: it ends with HBERRn, a read returning 0xFFFF with good parity; a forwarded low half has
no host access to end (R162, R158). -/
def hostTimedOut (a : Access) (phantom : Bool) (s : State) : State :=
  if phantom then resumeHeld s
  else
    s.endHost (if a.second.isSome then a.addr + 1 else a.addr) a.write.isSome true ((a.second <|> a.write).getD (goodWord 0xFFFF))

end Sys2Proof.Machine
end

