-- ==== Sys2Proof/Machine/Lines.lean ====
section
/-! DEFINITION. The Line Monitor: sampling at the end of the load (R143), tally events (R144, R145, R61) and the stop line (R146,
R147, R60). -/

namespace Sys2Proof.Machine

/-- The on-air level of line n when its pin stands at a level: its active level is high, or low when its polarity bit is set
(R142). -/
def onAirLevel (l : LineMonitor) (n : Fin 8) (high : Bool) : Bool := high != l.polarity.getLsbD n.val

/-- The edge report field of line n: 0 NONE, 1 ON, 2 OFF, 3 BOTH (R142). -/
def edgeReport (l : LineMonitor) (n : Fin 8) : BitVec 2 := l.edges.extractLsb' (2 * n.val) 2

/-- The line's changes toward this level raise TALLY_EDGE (R144). -/
def edgeReported (l : LineMonitor) (n : Fin 8) (on : Bool) : Bool :=
  if on then (edgeReport l n)[0] else (edgeReport l n)[1]

/-- The line state word is due (R143). -/
def State.lineDue (s : State) : State := s.modStat fun w => { w with lineDue := true }

/-- At the end of the load every line is sampled once; no flag is set and no camera is reached (R143). -/
def sampleLines (s : State) : State :=
  { s with
    lines :=
      { s.lines with onAir := Vector.ofFn fun n => onAirLevel s.lines n s.pins.tally[n], stop := s.pins.stopLow } }.lineDue

/-! Tally (R144, R145, R61) -/

/-- Camera c, enabled, takes a change of its on-air state (R145, R61, R51). -/
def tallyCamera (on : Bool) (s : State) (c : Cam) : State :=
  let k := s.cam c
  let s := s.modCam c fun k => reformRate { k with onAir := on }
  if k.state = .waiting then
    if on then
      s.modCam c fun k => { k with waitTally := k.waitTally || !k.plan.onAir }
    else if k.waitTally then nextHead c (reasonsChanged c (s.modCam c fun k => { k with waitTally := false }))
    else s
  else s

/-- The camera takes the events of tally line n: it is enabled and its applied tally line is n (R144). -/
def usesLine (k : Camera) (n : Fin 8) : Bool := enabledState k.state && k.cfg.tally == some n

/-- A tally event of line n: the line's level, the flag, then each camera of the line in ascending camera number (R144,
R107). -/
def tallyEvent (n : Fin 8) (on : Bool) (s : State) : State :=
  let s := { s with lines := { s.lines with onAir := s.lines.onAir.set n on } }.lineDue
  let s := if edgeReported s.lines n on then s.flag flagTallyEdge else s
  (allCams.filter fun c => usesLine (s.cam c) n).foldl (tallyCamera on) s

/-- Tally line n changes to a level. A change of its on-air level is an event once the load has ended (R143, R144). -/
def tallyChange (n : Fin 8) (high : Bool) (s : State) : State :=
  let s := { s with pins := { s.pins with tally := s.pins.tally.set n high } }
  let on := onAirLevel s.lines n high
  if s.startup = .running ∧ on ≠ s.lines.onAir[n] then tallyEvent n on s else s

/-! Stop (R146, R147, R60) -/

/-- What the assertion of the stop line does to camera c, by its state (R60, R36). -/
def stopCamera (s : State) (c : Cam) : State :=
  match (s.cam c).state with
  | .offline => s
  | .adopting => s.modCam c fun k => { k with adoption := k.adoption.map fun ad => { ad with stopSeen := true } }
  | .waiting => s.modCam c fun k => { k with stopLatch := true, waitStop := true }
  | .moving =>
    s.modCam c fun k => reformRate { k with stopLatch := true, halt := true, rate := 0, state := .halted }
  | .halting =>
    if (s.cam c).abandon then
      abandonMove c (s.modCam c fun k => reformRate { k with stopLatch := true, halt := true, rate := 0 })
    else s.modCam c fun k => reformRate { k with stopLatch := true, halt := true, rate := 0, state := .halted }
  | _ => s.modCam c fun k => { k with stopLatch := true }

/-- The assertion of the stop line: its level, the flag, then every camera in ascending camera number (R146, R107). -/
def stopAsserted (s : State) : State :=
  allCams.foldl stopCamera (({ s with lines := { s.lines with stop := true } }.lineDue).flag flagStopOn)

/-- The release of the stop line: no camera changes (R147). -/
def stopReleased (s : State) : State := ({ s with lines := { s.lines with stop := false } }.lineDue).flag flagStopOff

/-- STOPn changes to a level. A change of the stop line's level is an event once the load has ended (R143, R146, R147). -/
def stopChange (low : Bool) (s : State) : State :=
  let s := { s with pins := { s.pins with stopLow := low } }
  if s.startup = .running ∧ low ≠ s.lines.stop then (if low then stopAsserted s else stopReleased s) else s

end Sys2Proof.Machine
end

