-- ==== Sys2Proof/Machine/Timer.lean ====
section
/-! DEFINITION. The Frame Timer: divided REF points, sync states and ticks (R119 to R129), the serviced tick (R33, R128, R133),
the wait counts (R109) and the status interval (R170). -/

namespace Sys2Proof.Machine

/-- Change the Frame Timer. -/
def State.modTimer (s : State) (f : FrameTimer → FrameTimer) : State := { s with timer := f s.timer }

/-- The loss time 5 Tint / 4: Tint + floor (Tint / 4) (R119). -/
def lossTime (t : FrameTimer) : Nat := t.tint + t.tint / 4

/-- The sync state becomes x; a change makes the sync group due (R120, R168). -/
def State.setSync (s : State) (x : SyncState) : State :=
  { s with
    timer := { s.timer with sync := x }
    stat := { s.stat with syncDue := s.stat.syncDue || (x != s.timer.sync) } }

/-! Floor wait counts (R109) -/

/-- A tick raises the wait count of a camera in the set of waiting cameras; it stays at 65535 (R109). -/
def countWait (k : Camera) : Camera :=
  if inWaitingSet k then { k with waitCount := Nat.min 65535 (k.waitCount + 1) } else k

/-- The camera is in the set, its limit is not 0, and its count has reached the limit (R109). -/
def waitExpired (k : Camera) : Bool :=
  inWaitingSet k && k.cfg.floorLimit != 0 && decide (k.cfg.floorLimit ≤ k.waitCount)

/-- The expiry of camera c's floor wait limit: its cue ends FLOOR_TIMEOUT, the held rectangle stays, and the camera takes its
next head (R109, R52). -/
def expireWait (c : Cam) (s : State) : State :=
  if waitExpired (s.cam c) then takeHead c (endActive c .floorTimeout 0 s) else s

/-! The serviced tick (R33 to R35, R128, R107) -/

/-- A HALTING camera comes to rest: HALTED, or abandoned when its abandon mark is set (R35, R57). -/
def restMove (c : Cam) (s : State) : State :=
  if (s.cam c).abandon then abandonMove c s else s.modCam c fun k => { k with state := .halted }

/-- Camera c's step at a serviced tick after the motion of all: the completion or the coming to rest of a camera that was
MOVING or HALTING at the tick, the expiry of one that was waiting (R33 steps 4 and 5, R109). -/
def tickStep (old : State) (s : State) (c : Cam) : State :=
  match (old.cam c).state with
  | .moving => if (s.cam c).p = (s.cam c).plan.n' then completeMove c s else s
  | .halting =>
    if (s.cam c).p = (s.cam c).plan.n' then completeMove c s
    else if (s.cam c).rate = 0 then restMove c s
    else s
  | .waiting => if inWaitingSet (old.cam c) then expireWait c s else s
  | _ => s

/-- The frame values of a camera: the setpoint of each present axis, 0 for an absent one (R133). -/
def frameValues (k : Camera) : Positions := positionsOf fun a => if inMask k.cfg.mask a then k.setpoints[a] else 0

/-- The inactive bank (R134). -/
def otherBank : Bank → Bank
  | .a => .b
  | .b => .a

/-- The cameras in the order of the rotation pointer, wrapping from 7 to 0 (R133). -/
def rotation (p : Fin 8) : List Cam := (List.finRange 8).map fun i => p + i

/-- A write-out is begun for each enabled camera, in the order of the rotation pointer, which then advances (R133). The order is taken
from the pointer as it stands before this advance: DESIGN CHOICE (log 34). -/
def formWriteOuts (s : State) : State :=
  let due := (rotation s.setp.pointer).filter fun c => enabledState (s.cam c).state
  let new := due.map fun c =>
    { cam := c, bank := otherBank (s.cam c).activeBank, frame := s.timer.frame, values := frameValues (s.cam c), granted := 0 }
  { s with setp := { s.setp with writeOuts := s.setp.writeOuts ++ new, pointer := s.setp.pointer + 1 } }

/-- The states whose records the status interval marks due (R170). -/
def intervalState : CamState → Bool
  | .moving | .halting | .direct => true
  | _ => false

/-- The count has reached the status interval: it returns to 0, and the sync group and the records of the cameras in MOVING,
HALTING and DIRECT are due (R170). -/
def reachInterval (s : State) : State :=
  s.modStat fun w =>
    { w with
      count := 0, syncDue := true
      recordDue := Vector.ofFn fun c => w.recordDue[c] || intervalState (s.cam c).state }

/-- The Status Writer counts a tick toward its interval (R170). -/
def countInterval (s : State) : State :=
  if s.stat.interval ≤ s.stat.count + 1 then reachInterval s else s.modStat fun w => { w with count := w.count + 1 }

/-- A serviced tick: the wait counts rise and every camera's motion is serviced; then the floor steps are taken one camera at a
time in ascending camera number; then the write-outs are formed (R107, R109, R128, R133). -/
def servicedTick (s : State) : State :=
  let moved := { s with cams := Vector.ofFn fun c => serviceCamera (countWait (s.cam c)) }
  countInterval (formWriteOuts (allCams.foldl (tickStep s) moved))

/-- A missed tick: the counter rises to at most 255, FRAME_MISSED is set, and no camera is serviced; the wait counts rise and
expire as at any tick (R129, R38, R109). -/
def missedTick (s : State) : State :=
  let counted := { s with cams := Vector.ofFn fun c => countWait (s.cam c) }
  let expired :=
    allCams.foldl (fun t c => if inWaitingSet (s.cam c) then expireWait c t else t) counted
  countInterval ((expired.setMissed (Nat.min 255 (s.timer.missed + 1))).flag flagFrameMissed)

/-- A tick at time t: the frame counter rises, and the tick is serviced when every write-out of the last serviced tick is
finished, missed otherwise (R127). The rise of the frame counter alone does not mark the sync group due, not even while the group is being
written: DESIGN CHOICE (R130, R168; log 38). -/
def tick (t : Nat) (s : State) : State :=
  let s := s.modTimer fun m => { m with frame := m.frame + 1, lastTick := t }
  if s.setp.writeOuts = [] then servicedTick s else missedTick s

/-! The interval timer (R122, R125) -/

/-- The interval timer expires at its set time: a tick, with the next expiry Tint later; in LOCKED the reference is lost (R122,
R125). -/
def timerExpiry (s : State) : State :=
  match s.timer.nextExpiry with
  | none => s
  | some t =>
    let next := s.modTimer fun m => { m with nextExpiry := some (t + m.tint) }
    if s.timer.sync = .locked then
      tick t (((next.modTimer fun m => { m with qualify := 0 }).setSync .holdover).flag flagSyncLost)
    else tick t next

/-! Divided REF points (R121, R123, R124) -/

/-- The interval since the last divided REF point is good: Tint - Tint/8 to Tint + Tint/8 (R123). -/
def goodInterval (m : FrameTimer) (t : Nat) : Bool :=
  match m.lastPoint with
  | none => false
  | some p => decide (p ≤ t ∧ m.tint - m.tint / 8 ≤ t - p ∧ t - p ≤ m.tint + m.tint / 8)

/-- A divided REF point at time t in SEEKING or HOLDOVER: the interval, then the lock and its guard (R123). -/
def judgePoint (t : Nat) (s : State) : State :=
  let q := if goodInterval s.timer t then Nat.min 8 (s.timer.qualify + 1) else 0
  let judged := s.modTimer fun m => { m with qualify := q, lastPoint := some t }
  if q = 8 then
    let restarted := judged.modTimer fun m => { m with nextExpiry := some (t + lossTime m) }
    if s.timer.tint / 2 ≤ t - s.timer.lastTick then
      let locked := restarted.setSync .locked
      tick t (if s.timer.sync = .holdover then locked.flag flagSyncRegained else locked)
    else restarted
  else judged

/-- A divided REF point at time t: judged in SEEKING and HOLDOVER, a tick in LOCKED (R121, R123, R124). -/
def refPoint (t : Nat) (s : State) : State :=
  match s.timer.sync with
  | .locked => tick t (s.modTimer fun m => { m with lastPoint := some t, nextExpiry := some (t + lossTime m) })
  | .seeking => judgePoint t s
  | .holdover => judgePoint t s
  | .free => s.modTimer fun m => { m with lastPoint := some t }

/-- A REF edge at time t. In HOUSE mode an edge in the selected direction raises the divider count, and the D-th is a divided
REF point; any other edge is not taken (R121). -/
def takeRefEdge (falling : Bool) (t : Nat) (s : State) : State :=
  if s.timer.mode = .house ∧ falling = s.timer.falling then
    if s.timer.divider ≤ s.timer.divCount + 1 then refPoint t (s.modTimer fun m => { m with divCount := 0 })
    else s.modTimer fun m => { m with divCount := m.divCount + 1 }
  else s

end Sys2Proof.Machine
end

