-- ==== Sys2Proof/Machine/Load.lean ====
section
/-! DEFINITION. Reset and the start-up load (R164), with the taking of settings, fence and zone words (R99, R115, R119, R142, R153,
R162, R170). -/

namespace Sys2Proof.Machine

/-- RESETn is asserted: everything takes its reset value but memory, the levels of the pins, the commands, the accesses the host
has presented and not yet had decoded, and the record of how the last one ended (log 9); the count of the arbiter's free choices goes
on (log 10). -/
def resetState (s : State) : State :=
  { State.reset with
    pending := s.pending, mem := s.mem, pins := s.pins
    port := { State.reset.port with picks := s.port.picks }
    bus := { queue := s.bus.queue, held := none, req := none, staging := none, ended := s.bus.ended } }

/-- The word of an access reaches memory. -/
def landWrite (a : Access) (s : State) : State :=
  match a.write with
  | some w => s.write a.addr w
  | none => s

/-- The default of each setting word: 16 µs, INTERNAL, 2,000 µs, D 1, the rising edge, 10 frames, active high, NONE, an origin of 0
in both halves of OX and of OY (log 17), and a cell shift of 12 (R164, R119, R142, R99). -/
def settingDefault (n : Nat) : BitVec 16 := ([16, 0, 2000, 1, 0, 10, 0, 0, 0, 0, 0, 0, 12] : List (BitVec 16)).getD n 0

/-- Setting word n is taken by its owner, clamped to its range (R164, R172, R99, R119, R142, R162, R170). -/
def takeSetting (n : Nat) (d : BitVec 16) (s : State) : State :=
  match n with
  | 0 => { s with port := { s.port with timeout := clampNat 1 255 d.toNat } }
  | 1 => s.modTimer fun m => { m with mode := if d[0] then .house else .internal }
  | 2 => s.modTimer fun m => { m with tint := clampNat 500 20000 d.toNat }
  | 3 => s.modTimer fun m => { m with divider := clampNat 1 16 d.toNat }
  | 4 => s.modTimer fun m => { m with falling := d[0] }
  | 5 => s.modStat fun w => { w with interval := clampNat 1 255 d.toNat }
  | 6 => { s with lines := { s.lines with polarity := d.extractLsb' 0 8 } }
  | 7 => { s with lines := { s.lines with edges := d } }
  | 8 => { s with floor := { s.floor with ox := s.floor.ox.extractLsb' 16 16 ++ d } }
  | 9 => { s with floor := { s.floor with ox := d ++ s.floor.ox.extractLsb' 0 16 } }
  | 10 => { s with floor := { s.floor with oy := s.floor.oy.extractLsb' 16 16 ++ d } }
  | 11 => { s with floor := { s.floor with oy := d ++ s.floor.oy.extractLsb' 0 16 } }
  | 12 => { s with floor := { s.floor with shift := clampNat 0 24 d.toNat } }
  | _ => s

/-- The fence entry of five words of good parity, base, mask and mode, with a hit counter (R153). -/
def fenceOfWords (hits : Nat) (ws : List MWord) : Fence :=
  let d := fun i => (ws.getD i ⟨0, 0⟩).data
  { base := pairAddr (d 0) (d 1), mask := pairAddr (d 2) (d 3), mode := fenceModeOf (d 4), hits := hits }

/-- Word k of fence entry n has been read: after the fifth, an entry whose five words all had good parity takes them (R153). -/
def loadFence (n : Fin 8) (k : Nat) (w : MWord) (s : State) : State :=
  let ws := s.loadEntry ++ [w]
  if k < 4 then { s with loadEntry := ws }
  else
    let s := { s with loadEntry := [] }
    if ws.all wordOk then { s with fences := s.fences.set n (fenceOfWords s.fences[n].hits ws) } else s

/-- Word k of zone entry z has been read: a good bound word is taken, and after the fifth an entry whose five words all had good
parity and whose ENABLE has bit 0 set is applied (R115). -/
def loadZone (z : Fin 16) (k : Nat) (w : MWord) (s : State) : State :=
  let ws := s.loadEntry ++ [w]
  if k < 4 then takeBound z (Fin.ofNat 4 k) w { s with loadEntry := ws }
  else
    let s := { s with loadEntry := [] }
    if ws.all wordOk && w.data[0] then applyZone z s else s

/-- The Frame Timer starts: the sync state becomes FREE or SEEKING by the mode, the first expiry is Tint away, and the event is the
recorded last tick. A change of the sync state makes the sync group due (R120). -/
def startTimer (s : State) : State :=
  (s.modTimer fun m => { m with nextExpiry := some m.tint, lastTick := 0 }).setSync
    (if s.timer.mode = .house then .seeking else .free)

/-- The end of the load: the Frame Timer starts and the lines are sampled (R164, R120, R143). The host's waiting access is decoded
at the end of the event (pumpHost). -/
def endLoad (s : State) : State := sampleLines (startTimer { s with startup := .running })

/-- The first phase is over: the second begins (R164). -/
def beginWrites (s : State) : State := { s with startup := .writing 0, loadEntry := [] }

/-- Read n of the first phase has ended with the word w from address a: a setting word of bad parity is replaced by its default
(R164). -/
def startupRead (n : Nat) (a : Addr) (w : MWord) (s : State) : State :=
  let s := if wordOk w then s else s.error .ownParity true a w
  let s :=
    if n < 13 then takeSetting n (if wordOk w then w.data else settingDefault n) s
    else if n < 53 then loadFence (Fin.ofNat 8 ((n - 13) / 5)) ((n - 13) % 5) w s
    else loadZone (Fin.ofNat 16 ((n - 53) / 5)) ((n - 53) % 5) w s
  if n + 1 < loadReads then { s with startup := .reading (n + 1) } else beginWrites s

/-- The load's first write at or after n that is to be made. The rest of a group whose item is due again, a write of it having timed
out, is not written (R168, R170; log 16). `fuel` bounds the writes passed over: a group has at most 63 after its first. -/
def nextLoadWrite (w : StatusWriter) : Nat → Nat → Nat
  | 0, n => n
  | fuel + 1, n =>
    match loadItem n with
    | some (i, false) => if itemDue i w then nextLoadWrite w fuel (n + 1) else n
    | _ => n

/-- Write n of the second phase has ended: the load goes on to its next write, and ends with the last (R164). -/
def startupWrite (n : Nat) (s : State) : State :=
  if nextLoadWrite s.stat 63 (n + 1) < loadWrites then { s with startup := .writing (nextLoadWrite s.stat 63 (n + 1)) }
  else endLoad s

/-- Write n of the second phase has timed out: its item is due again, the rest of its group is not written, and the load goes on to
its next write (R164, R168, R170). A word that belongs to no item of R168, the mask word and the ready word among them, is not written
again: DESIGN CHOICE (log 36). -/
def startupWriteTimeout (n : Nat) (s : State) : State :=
  startupWrite n
    (match loadItem n with
      | some (i, _) => s.modStat (markItem i true)
      | none => s)

end Sys2Proof.Machine
end

