-- ==== Sys2Proof/Machine/Settle.lean ====
section
/-! DEFINITION. What every event shares: the end of an access at the port (R161, R162), and the settling of an event, in which the
Shot Engine starts its next request, the host's next access is decoded, due marks are set and the port is granted. -/

namespace Sys2Proof.Machine

/-! Settling -/

/-- Requests of the event join the FIFO in camera order, and the Shot Engine, if free, starts the entry at its head (R87). -/
def startRequests (s : State) : State := startShot (joinArrivals s)

/-- The end of every event that takes the part from `old` to `new`: requests start, the host's waiting access is decoded if the
host is free, the status records whose report changed are due, and the port is granted. `wasFree`: the port was free when the
requests now made reached it (R161). -/
def settleWith (wasFree : Bool) (old new : State) : State :=
  arbitrate wasFree (markRecords old (startRequests (pumpHost (startRequests new))))

/-- The end of an event during which the port was held or free throughout. -/
def settle (old new : State) : State := settleWith old.port.cur.isNone old new

/-! The end of an access at the port -/

/-- The port is free (R161). -/
def State.freePort (s : State) : State := { s with port := { s.port with cur := none } }

/-- The word of the access reaches memory. A pair goes on with its second word under the same grant (R157, R140); any other access
leaves the port free. Answers the state and whether the grant is over. -/
def endWrite (a : Access) (s : State) : State × Bool :=
  let s := landWrite a s
  match a.second with
  | some h =>
    ({ s with port := { s.port with cur := some { a with addr := a.addr + 1, write := some h, second := none } } }, false)
  | none => (s.freePort, true)

/-- The word a read brings: the one the command answers with, or the one memory holds (log 5). -/
def answered (answer : Option MWord) (a : Access) (s : State) : MWord := answer.getD (s.read a.addr)

/-- Memory answers the host access at the port (R151, R157, R158). The word a host access carries to its end is the word read, or
the word written. -/
def endHostAccess (answer : Option MWord) (s : State) : State :=
  match s.port.cur with
  | some a =>
    match a.owner with
    | .host e phantom =>
      let w := a.write.getD (answered answer a s)
      let (t, last) := endWrite a s
      if last then hostEnded a e phantom w t else t
    | _ => s
  | none => s

/-- The access at the port, when it belongs to an owner that `p` names. -/
def portAccess (p : Owner → Bool) (s : State) : Option Access := s.port.cur.filter fun a => p a.owner

/-! Commands that name a host write as it completes (log 7) -/

/-- The access is the host's write of the word w to the address, alone. -/
def isHostWrite (a : Addr) (w : MWord) (x : Access) : Bool :=
  x.addr == a && x.write == some w && x.second == none &&
    (match x.owner with
      | .host _ phantom => !phantom
      | _ => false)

/-- A host write of the word w to the region word at `off` completes at memory. When it already holds the port, this is its end.
Otherwise the host presents it, and where the host and the port are free it is decoded, granted and ended in this one event; a
host or a port that is not free leaves it waiting, to end with a later HOST_ACCESS_END (log 7). -/
def completeWrite (off : Offset) (w : MWord) (s : State) : State :=
  let a := addrOf s.base off
  if s.port.cur.any (isHostWrite a w) then settle s (endHostAccess none s)
  else
    let t := present ⟨a, some w⟩ s
    if t.port.cur.isNone && t.bus.req.any (isHostWrite a w) then
      settleWith false s (endHostAccess none ((grantHost t).getD t))
    else settle s t

/-- The host posts a cue of a kind to camera c (R66). -/
def postKind (c : Cam) (tag : BitVec 8) (spare kind : BitVec 4) (par : BitVec 2) (s : State) : State :=
  completeWrite (mailboxOff c 0) (commandWord tag spare kind par) s

/-! The memory timeout (R162, R163) -/

/-- The error a timeout hands on: the side of the access, its address, and the data of a write, 0 with good parity for a read
(R162, R167). -/
def timeoutError (a : Access) (s : State) : State :=
  s.error .memTimeout (!hostOwner a.owner) a.addr (a.write.getD ⟨0, 3⟩)

/-- The write-out of camera c is abandoned, its active bank unchanged (R135). -/
def dropWriteOut (c : Cam) (s : State) : State :=
  { s with setp := { s.setp with writeOuts := s.setp.writeOuts.filter (·.cam != c) } }

/-- A status write has timed out: its item is due again, and the rest of its group is not written (R168, R170). -/
def dropItem (i : StatusItem) (s : State) : State := s.modStat fun w => markItem i true { w with rest := [], item := none }

/-- What the owner of a timed-out access does (R163). An own access whose operation was discarded ends with no more effect (R88, R91,
R45, R64). -/
def ownerTimeout (a : Access) (s : State) : State :=
  match a.owner with
  | .host _ phantom => hostTimedOut a phantom s
  | .startupRead _ => beginWrites s
  | .startupWrite n => startupWriteTimeout n s
  | .adoption c => if a.live then timeoutAdoption c s else s
  | .fetch => if a.live then timeoutShot s else s
  | .capture => if a.live then timeoutShot s else s
  | .writeOut c _ _ => if a.live then dropWriteOut c s else s
  | .fill _ => s
  | .status i => dropItem i s

/-- The access at the port times out (R162). `landed`: memory completed the write all the same (log 6). -/
def timeoutAccess (landed : Bool) (a : Access) (s : State) : State :=
  let s := if landed then landWrite a s else s
  ownerTimeout a (timeoutError a s.freePort)

/-! The ends of own writes -/

/-- The owner is a read of the load's first phase. -/
def startupReadOwner : Owner → Bool
  | .startupRead _ => true
  | _ => false

/-- The owner is a write of the load's second phase. -/
def startupWriteOwner : Owner → Bool
  | .startupWrite _ => true
  | _ => false

/-- The owner is an adoption. -/
def anyAdoption : Owner → Bool
  | .adoption _ => true
  | _ => false

/-- The owner is a write-out. -/
def anyWriteOut : Owner → Bool
  | .writeOut _ _ _ => true
  | _ => false

/-- The owner is a fill. -/
def anyFill : Owner → Bool
  | .fill _ => true
  | _ => false

/-- The owner is the Status Writer. -/
def anyStatus : Owner → Bool
  | .status _ => true
  | _ => false

/-- A write-out's write has ended: with the control word the bank it filled becomes the active bank, whether or not the write-out
was discarded, and the write-out is finished (R134, R135). -/
def writeOutEnded (a : Access) (s : State) : State :=
  match a.owner with
  | .writeOut c bank true =>
    (if a.live then dropWriteOut c s else s).modCam c fun k => { k with activeBank := bank }
  | _ => s

/-- A write of the Status Writer has ended: with the last word of its item the item is over (R168). -/
def statusEnded (s : State) : State := if s.stat.rest = [] then s.modStat fun w => { w with item := none } else s

end Sys2Proof.Machine
end

