-- ==== Sys2Proof/Machine/MemoryEvents.lean ====
section
/-! DEFINITION. The meanings of the reset commands (R40, R164), of the end of each own access (R44, R90, R94, R134, R140, R164, R168) and
of the memory timeout (R162). An end of an access that does not hold the port is not taken (R162; log 4). -/

namespace Sys2Proof.Machine

/-- What a command answers. -/
abbrev Answer := Host.Outcome State Fault Refusal

/-- RESETn is asserted (R40). An access in flight is given up; `landed` says that its write reached memory (R87, R162; log 6). -/
def execResetAssert (landed : Bool) (s : State) : Answer :=
  .next (resetState (match s.port.cur with | some a => if landed then landWrite a s else s | none => s))

/-- RESETn is released: the straps are sampled and the load makes its first read (R150, R164). -/
def execResetRelease (straps : BitVec 2) (s : State) : Answer :=
  if s.startup = .inReset then .next (settle s { s with base := straps, startup := .reading 0 }) else .next s

/-- A read of the load's first phase ends (R164). -/
def execStartupReadEnd (answer : Option MWord) (s : State) : Answer :=
  match portAccess startupReadOwner s with
  | some a =>
    match a.owner with
    | .startupRead n => .next (settle s (startupRead n a.addr (answered answer a s) s.freePort))
    | _ => .next s
  | none => .next s

/-- A write of the load's second phase ends (R164). -/
def execStartupWriteEnd (s : State) : Answer :=
  match portAccess startupWriteOwner s with
  | some a =>
    match a.owner with
    | .startupWrite n => .next (settle s (startupWrite n (endWrite a s).1))
    | _ => .next s
  | none => .next s

/-- A read of an adoption ends (R44). The word of an adoption given up is not used (R45). -/
def execAdoptionReadEnd (answer : Option MWord) (s : State) : Answer :=
  match portAccess anyAdoption s with
  | some a =>
    match a.owner, a.live with
    | .adoption c, true => .next (settle s (adoptionRead c a.addr (answered answer a s) s.freePort))
    | _, _ => .next (settle s s.freePort)
  | none => .next s

/-- A read of a shot fetch ends (R90). The word of an attempt or a fetch given up is not used (R88, R91). -/
def execFetchReadEnd (answer : Option MWord) (s : State) : Answer :=
  match portAccess (· == .fetch) s with
  | some a =>
    if a.live then .next (settle s (fetchRead a.addr (answered answer a s) s.freePort)) else .next (settle s s.freePort)
  | none => .next s

/-- A write of a capture ends (R94). The word of a discarded capture stays in memory (R88). -/
def execCaptureWriteEnd (s : State) : Answer :=
  match portAccess (· == .capture) s with
  | some a =>
    let t := (endWrite a s).1
    .next (settle s (if a.live then captureWrite t else t))
  | none => .next s

/-- A write of a frame write-out ends (R134, R135). -/
def execWriteOutWriteEnd (s : State) : Answer :=
  match portAccess anyWriteOut s with
  | some a => .next (settle s (writeOutEnded a (endWrite a s).1))
  | none => .next s

/-- A write of a direct slot fill ends (R140). -/
def execDirectFillWriteEnd (s : State) : Answer :=
  match portAccess anyFill s with
  | some a => .next (settle s (endWrite a s).1)
  | none => .next s

/-- A write of the Status Writer ends (R168). -/
def execStatusWriteEnd (s : State) : Answer :=
  match portAccess anyStatus s with
  | some a => .next (settle s (statusEnded (endWrite a s).1))
  | none => .next s

/-- The memory timeout of the access at the port expires (R162, R163). -/
def execMemoryTimeout (landed : Bool) (s : State) : Answer :=
  match s.port.cur with
  | some a => .next (settle s (timeoutAccess landed a s))
  | none => .next s

end Sys2Proof.Machine
end

