-- ==== Sys2Proof/Machine/ClockAndLines.lean ====
section
/-! DEFINITION. The meanings of the interval timer's expiry (R122, R125), the REF edge (R121), the floor timeout (R109), the status
interval (R170) and the line changes (R144, R146, R147). -/

namespace Sys2Proof.Machine

/-- The interval timer expires, at its set time (R122, R125; log 13). With no expiry pending nothing happens. -/
def execIntervalTimerExpiry (s : State) : Answer :=
  if s.startup = .running ∧ s.timer.nextExpiry.isSome then .next (settle s (timerExpiry s)) else .next s

/-- An edge of REF at time t (R121). From RESETn to the end of the load none is taken (R120). -/
def execRefEdge (falling : Bool) (t : Nat) (s : State) : Answer :=
  if s.startup = .running then .next (settle s (takeRefEdge falling t s)) else .next s

/-- The next tick's count would bring camera c's wait count to its limit (R109). -/
def waitAtLimit (k : Camera) : Bool :=
  inWaitingSet k && k.cfg.floorLimit != 0 && decide (k.cfg.floorLimit ≤ k.waitCount + 1)

/-- Camera c's wait count reaches its floor wait limit: the Floor Map's share of the tick that counts it (R109; log 11). -/
def execFloorTimeout (c : Cam) (s : State) : Answer :=
  if waitAtLimit (s.cam c) then
    .next (settle s (expireWait c (s.modCam c fun k => { k with waitCount := Nat.min 65535 (k.waitCount + 1) })))
  else .next s

/-- The tick count reaches the status interval: the Status Writer's share of the tick that counts it (R170; log 12). -/
def execStatusInterval (s : State) : Answer :=
  if s.startup = .running ∧ s.stat.interval ≤ s.stat.count + 1 then .next (settle s (reachInterval s)) else .next s

/-- Tally line n changes to a level (R144). -/
def execTallyEvent (n : Fin 8) (high : Bool) (s : State) : Answer :=
  if s.pins.tally[n] = high then .next s else .next (settle s (tallyChange n high s))

/-- STOPn goes low (R146). -/
def execStopAssert (s : State) : Answer :=
  if s.pins.stopLow then .next s else .next (settle s (stopChange true s))

/-- STOPn goes high (R147). -/
def execStopRelease (s : State) : Answer :=
  if s.pins.stopLow then .next (settle s (stopChange false s)) else .next s

end Sys2Proof.Machine
end

