-- ==== Sys2Proof/Machine/HostCommands.lean ====
section
/-! DEFINITION. The meanings of the host's accesses (R151) and of the host writes the table names by their target (R152). Each presents
its access: it is decoded at once when the host is free and the load has ended, and waits otherwise (R151; log 8). FENCE_MODE_WRITE,
ZONE_APPLY and ZONE_REMOVE are writes as they complete at memory (log 7). -/

namespace Sys2Proof.Machine

/-- The host presents a read (R151). -/
def execHostRead (a : Addr) (s : State) : Answer := .next (settle s (present ⟨a, none⟩ s))

/-- The host presents a write (R151). -/
def execHostWrite (a : Addr) (w : MWord) (s : State) : Answer := .next (settle s (present ⟨a, some w⟩ s))

/-- Memory answers the host access at the port (R151). -/
def execHostAccessEnd (answer : Option MWord) (s : State) : Answer :=
  match portAccess hostOwner s with
  | some _ => .next (settle s (endHostAccess answer s))
  | none => .next s

/-- A host write to a refused region word (R152). -/
def execRegionWriteRefused (off : Offset) (w : MWord) (s : State) : Answer := .next (settle s (presentAt off w s))

/-- A host write to the flags word (R165). -/
def execFlagsWordWrite (w : MWord) (s : State) : Answer := .next (settle s (presentAt 0x40 w s))

/-- A host write to the mask word (R166). -/
def execMaskWordWrite (w : MWord) (s : State) : Answer := .next (settle s (presentAt 0x41 w s))

/-- A host write to the capture clear word (R167). -/
def execCaptureClearWrite (w : MWord) (s : State) : Answer := .next (settle s (presentAt 0x60 w s))

/-- A host write to the missed-frame counter word (R129). -/
def execMissedFrameCounterWrite (w : MWord) (s : State) : Answer := .next (settle s (presentAt 0x48 w s))

/-- A host write to the hit counter word of fence entry n (R155). -/
def execFenceHitCounterWrite (n : Fin 8) (w : MWord) (s : State) : Answer := .next (settle s (presentAt (hitsOff n) w s))

/-- A host write to a BASE or MASK word of fence entry n (R153). -/
def execFenceBoundWrite (n : Fin 8) (k : Fin 4) (w : MWord) (s : State) : Answer :=
  .next (settle s (presentAt (fenceOff n k) w s))

/-- A host write to the MODE word of fence entry n completes at memory (R153). -/
def execFenceModeWrite (n : Fin 8) (w : MWord) (s : State) : Answer := .next (completeWrite (fenceOff n 4) w s)

/-- A host write to the low half of the probe pair (R157). -/
def execProbeLowHalfWrite (w : MWord) (s : State) : Answer := .next (settle s (presentAt 0xC0 w s))

/-- A host write to the high half of the probe pair (R156). -/
def execProbeHighHalfWrite (w : MWord) (s : State) : Answer := .next (settle s (presentAt 0xC1 w s))

/-- A host write to the low half of the direct slot of axis a of camera c (R138). -/
def execDirectSlotLowHalfWrite (c : Cam) (a : Axis) (w : MWord) (s : State) : Answer :=
  .next (settle s (presentAt (frameOff c (48 + 2 * a.val)) w s))

/-- A host write to the high half of the direct slot of axis a of camera c (R138). -/
def execDirectSlotHighHalfWrite (c : Cam) (a : Axis) (w : MWord) (s : State) : Answer :=
  .next (settle s (presentAt (frameOff c (49 + 2 * a.val)) w s))

/-- A host write to word 58 + k of camera c's frame (R139). -/
def execFloorSlotWriteRefused (c : Cam) (k : Fin 4) (w : MWord) (s : State) : Answer :=
  .next (settle s (presentAt (frameOff c (58 + k.val)) w s))

/-- A host write to word k of words 0 to 32 of camera c's frame (R137). -/
def execSetpointFrameWriteRefused (c : Cam) (k : Fin 33) (w : MWord) (s : State) : Answer :=
  .next (settle s (presentAt (frameOff c k) w s))

/-- A host write to word k of camera c's config block (R15). -/
def execConfigBlockWrite (c : Cam) (k : Fin 128) (w : MWord) (s : State) : Answer :=
  .next (settle s (presentAt (configOff c k) w s))

/-- A host write to word k of the shot store (R91, R95). -/
def execShotStoreWrite (k : BitVec 14) (w : MWord) (s : State) : Answer := .next (settle s (presentAt (1#2 ++ k) w s))

/-- A host write to bound word k of zone entry z (R113). -/
def execZoneBoundWrite (z : Fin 16) (k : Fin 4) (w : MWord) (s : State) : Answer :=
  .next (settle s (presentAt (zoneOff z k) w s))

/-- A host write to the ENABLE word of zone entry z with bit 0 set completes at memory (R114). -/
def execZoneApply (z : Fin 16) (rest : BitVec 15) (par : BitVec 2) (s : State) : Answer :=
  .next (completeWrite (zoneOff z 4) ⟨rest ++ 1#1, par⟩ s)

/-- A host write to the ENABLE word of zone entry z with bit 0 clear completes at memory (R116). -/
def execZoneRemove (z : Fin 16) (rest : BitVec 15) (par : BitVec 2) (s : State) : Answer :=
  .next (completeWrite (zoneOff z 4) ⟨rest ++ 0#1, par⟩ s)

/-- A host write to mailbox word 1 + k of camera c (R65). -/
def execMailboxLatchWrite (c : Cam) (k : Fin 4) (w : MWord) (s : State) : Answer :=
  .next (settle s (presentAt (mailboxOff c (1 + k.val)) w s))

end Sys2Proof.Machine
end

