-- ==== Sys2Proof/Machine/Posts.lean ====
section
/-! DEFINITION. The meanings of the posts (R66, R70): the write of a mailbox's COMMAND word with each kind, as it completes at memory
(log 7). takePost judges the cue by the word written. -/

namespace Sys2Proof.Machine

/-- A post of GOTO (R71). -/
def execGoto (c : Cam) (tag : BitVec 8) (spare : BitVec 4) (par : BitVec 2) (s : State) : Answer :=
  .next (postKind c tag spare 1 par s)

/-- A post of RETURN (R71). -/
def execReturn (c : Cam) (tag : BitVec 8) (spare : BitVec 4) (par : BitVec 2) (s : State) : Answer :=
  .next (postKind c tag spare 2 par s)

/-- A post of HALT (R76). -/
def execHalt (c : Cam) (tag : BitVec 8) (spare : BitVec 4) (par : BitVec 2) (s : State) : Answer :=
  .next (postKind c tag spare 3 par s)

/-- A post of RESUME (R77). -/
def execResume (c : Cam) (tag : BitVec 8) (spare : BitVec 4) (par : BitVec 2) (s : State) : Answer :=
  .next (postKind c tag spare 4 par s)

/-- A post of ABANDON (R78). -/
def execAbandon (c : Cam) (tag : BitVec 8) (spare : BitVec 4) (par : BitVec 2) (s : State) : Answer :=
  .next (postKind c tag spare 5 par s)

/-- A post of OVERRIDE (R79). -/
def execOverride (c : Cam) (tag : BitVec 8) (spare : BitVec 4) (par : BitVec 2) (s : State) : Answer :=
  .next (postKind c tag spare 6 par s)

/-- A post of FLUSH (R80). -/
def execFlush (c : Cam) (tag : BitVec 8) (spare : BitVec 4) (par : BitVec 2) (s : State) : Answer :=
  .next (postKind c tag spare 7 par s)

/-- A post of CAPTURE (R81). -/
def execCapture (c : Cam) (tag : BitVec 8) (spare : BitVec 4) (par : BitVec 2) (s : State) : Answer :=
  .next (postKind c tag spare 8 par s)

/-- A post of DIRECT (R62, R82). -/
def execDirect (c : Cam) (tag : BitVec 8) (spare : BitVec 4) (par : BitVec 2) (s : State) : Answer :=
  .next (postKind c tag spare 9 par s)

/-- A post of RELEASE (R63, R82). -/
def execRelease (c : Cam) (tag : BitVec 8) (spare : BitVec 4) (par : BitVec 2) (s : State) : Answer :=
  .next (postKind c tag spare 10 par s)

/-- A post of ENABLE (R43, R82). -/
def execEnable (c : Cam) (tag : BitVec 8) (spare : BitVec 4) (par : BitVec 2) (s : State) : Answer :=
  .next (postKind c tag spare 11 par s)

/-- A post of DISABLE (R64, R82). -/
def execDisable (c : Cam) (tag : BitVec 8) (spare : BitVec 4) (par : BitVec 2) (s : State) : Answer :=
  .next (postKind c tag spare 12 par s)

/-- A post whose kind code names no kind (R69). -/
def execPostUnknownKind (c : Cam) (tag : BitVec 8) (spare kind : BitVec 4) (par : BitVec 2) (s : State) : Answer :=
  .next (postKind c tag spare kind par s)

end Sys2Proof.Machine
end

