-- ==== Sys2Proof/Machine/Dispatch.lean ====
section
/-! DEFINITION. One arm for each command. -/

namespace Sys2Proof.Machine

def exec (i : Instr) (s : State) : Host.Outcome State Fault Refusal :=
  match i with
  | .resetAssert landed => Sys2Proof.Machine.execResetAssert landed s
  | .resetRelease straps => Sys2Proof.Machine.execResetRelease straps s
  | .startupReadEnd answer => Sys2Proof.Machine.execStartupReadEnd answer s
  | .startupWriteEnd => Sys2Proof.Machine.execStartupWriteEnd s
  | .hostRead addr => Sys2Proof.Machine.execHostRead addr s
  | .hostWrite addr w => Sys2Proof.Machine.execHostWrite addr w s
  | .hostAccessEnd answer => Sys2Proof.Machine.execHostAccessEnd answer s
  | .memoryTimeout landed => Sys2Proof.Machine.execMemoryTimeout landed s
  | .regionWriteRefused off w => Sys2Proof.Machine.execRegionWriteRefused off w s
  | .flagsWordWrite w => Sys2Proof.Machine.execFlagsWordWrite w s
  | .maskWordWrite w => Sys2Proof.Machine.execMaskWordWrite w s
  | .captureClearWrite w => Sys2Proof.Machine.execCaptureClearWrite w s
  | .missedFrameCounterWrite w => Sys2Proof.Machine.execMissedFrameCounterWrite w s
  | .fenceHitCounterWrite n w => Sys2Proof.Machine.execFenceHitCounterWrite n w s
  | .fenceBoundWrite n k w => Sys2Proof.Machine.execFenceBoundWrite n k w s
  | .fenceModeWrite n w => Sys2Proof.Machine.execFenceModeWrite n w s
  | .probeLowHalfWrite w => Sys2Proof.Machine.execProbeLowHalfWrite w s
  | .probeHighHalfWrite w => Sys2Proof.Machine.execProbeHighHalfWrite w s
  | .directSlotLowHalfWrite c a w => Sys2Proof.Machine.execDirectSlotLowHalfWrite c a w s
  | .directSlotHighHalfWrite c a w => Sys2Proof.Machine.execDirectSlotHighHalfWrite c a w s
  | .floorSlotWriteRefused c k w => Sys2Proof.Machine.execFloorSlotWriteRefused c k w s
  | .setpointFrameWriteRefused c k w => Sys2Proof.Machine.execSetpointFrameWriteRefused c k w s
  | .configBlockWrite c k w => Sys2Proof.Machine.execConfigBlockWrite c k w s
  | .shotStoreWrite k w => Sys2Proof.Machine.execShotStoreWrite k w s
  | .zoneBoundWrite z k w => Sys2Proof.Machine.execZoneBoundWrite z k w s
  | .zoneApply z rest par => Sys2Proof.Machine.execZoneApply z rest par s
  | .zoneRemove z rest par => Sys2Proof.Machine.execZoneRemove z rest par s
  | .mailboxLatchWrite c k w => Sys2Proof.Machine.execMailboxLatchWrite c k w s
  | .goto c tag spare par => Sys2Proof.Machine.execGoto c tag spare par s
  | .ret c tag spare par => Sys2Proof.Machine.execReturn c tag spare par s
  | .halt c tag spare par => Sys2Proof.Machine.execHalt c tag spare par s
  | .resume c tag spare par => Sys2Proof.Machine.execResume c tag spare par s
  | .abandon c tag spare par => Sys2Proof.Machine.execAbandon c tag spare par s
  | .override c tag spare par => Sys2Proof.Machine.execOverride c tag spare par s
  | .flush c tag spare par => Sys2Proof.Machine.execFlush c tag spare par s
  | .capture c tag spare par => Sys2Proof.Machine.execCapture c tag spare par s
  | .direct c tag spare par => Sys2Proof.Machine.execDirect c tag spare par s
  | .release c tag spare par => Sys2Proof.Machine.execRelease c tag spare par s
  | .enable c tag spare par => Sys2Proof.Machine.execEnable c tag spare par s
  | .disable c tag spare par => Sys2Proof.Machine.execDisable c tag spare par s
  | .postUnknownKind c tag spare k par => Sys2Proof.Machine.execPostUnknownKind c tag spare k par s
  | .adoptionReadEnd answer => Sys2Proof.Machine.execAdoptionReadEnd answer s
  | .fetchReadEnd answer => Sys2Proof.Machine.execFetchReadEnd answer s
  | .captureWriteEnd => Sys2Proof.Machine.execCaptureWriteEnd s
  | .writeOutWriteEnd => Sys2Proof.Machine.execWriteOutWriteEnd s
  | .directFillWriteEnd => Sys2Proof.Machine.execDirectFillWriteEnd s
  | .statusWriteEnd => Sys2Proof.Machine.execStatusWriteEnd s
  | .intervalTimerExpiry => Sys2Proof.Machine.execIntervalTimerExpiry s
  | .refEdge falling t => Sys2Proof.Machine.execRefEdge falling t s
  | .floorTimeout c => Sys2Proof.Machine.execFloorTimeout c s
  | .statusInterval => Sys2Proof.Machine.execStatusInterval s
  | .tallyEvent n high => Sys2Proof.Machine.execTallyEvent n high s
  | .stopAssert => Sys2Proof.Machine.execStopAssert s
  | .stopRelease => Sys2Proof.Machine.execStopRelease s

end Sys2Proof.Machine
end

