-- ==== Sys2Proof/Safety.lean ====
section
/-! DEFINITION. What claims about the PB-26 are stated in: what an event leaves alone, how the host stands, and the invariants that every
step keeps. -/

namespace Sys2Proof.Machine

/-! Memory -/

/-- Every word of memory reads in t as it reads in s. -/
def SameMemory (s t : State) : Prop := ∀ a : Addr, t.read a = s.read a

/-- The word at a reads w in t, and every other word reads as in s. -/
def MemoryPut (s : State) (a : Addr) (w : MWord) (t : State) : Prop :=
  t.read a = w ∧ ∀ b : Addr, b ≠ a → t.read b = s.read b

/-- An access that timed out has put its word in memory when memory completed it all the same, and nothing otherwise (R162; log 6). -/
def Landed (s : State) (a : Addr) (w : Option MWord) (landed : Bool) (t : State) : Prop :=
  (∀ v, w = some v → landed = true → MemoryPut s a v t) ∧ (w = none ∨ landed = false → SameMemory s t)

/-- The memory keeps its canonical form (log 1). -/
def MemoryForm (s : State) : Prop := memWf s.mem = true

/-! What the end of an event leaves alone -/

/-- No request waits for a Shot Engine that is free (R87), and none of an event in progress is left. -/
def ShotQuiet (e : ShotEngine) : Prop := e.arrivals = [] ∧ (e.op = none → e.fifo = [])

/-- What a write-out is to write, whatever it has been granted so far (R133). -/
def writeOutPlan (w : WriteOut) : Cam × Bank × BitVec 32 × Positions := (w.cam, w.bank, w.frame, w.values)

/-- t agrees with u in everything of the part that the end of an event (Machine/Settle.lean) does not touch. Left out: memory, stated
beside it; the holder of the port and the requests for it; how far the write-outs and fills have got; the due marks, sequence numbers and
words in progress of the Status Writer; and the part's own queue of presented accesses. -/
structure Settled (u t : State) : Prop where
  pending : t.pending = u.pending
  startup : t.startup = u.startup
  loadEntry : t.loadEntry = u.loadEntry
  base : t.base = u.base
  pins : t.pins = u.pins
  held : t.bus.held = u.bus.held
  staging : t.bus.staging = u.bus.staging
  ended : t.bus.ended = u.bus.ended
  fences : t.fences = u.fences
  timeout : t.port.timeout = u.port.timeout
  timer : t.timer = u.timer
  lines : t.lines = u.lines
  cams : t.cams = u.cams
  floor : t.floor = u.floor
  shot : ShotQuiet u.shot → t.shot = u.shot
  writeOuts : t.setp.writeOuts.map writeOutPlan = u.setp.writeOuts.map writeOutPlan
  pointer : t.setp.pointer = u.setp.pointer
  adoptQueue : t.adoptQueue = u.adoptQueue
  flags : t.stat.flags = u.stat.flags
  mask : t.stat.mask = u.stat.mask
  capture : t.stat.capture = u.stat.capture
  probe : t.stat.probe = u.stat.probe
  interval : t.stat.interval = u.stat.interval
  count : t.stat.count = u.stat.count

/-! The host -/

/-- The part decodes host accesses, none is under way or waits, and no low half is held (R151, R157). -/
structure HostReady (s : State) : Prop where
  running : s.startup = .running
  free : hostBusy s = false
  queue : s.bus.queue = []
  staging : s.bus.staging = none

/-- No presented access waits while the part could decode it (R151). -/
def HostWaits (s : State) : Prop := s.startup = .running → s.bus.queue ≠ [] → hostBusy s = true

/-- The access has been forwarded: it waits at the arbiter or holds the port (R151, R161). -/
def Forwarded (a : Addr) (w second : Option MWord) (e : OnEnd) (t : State) : Prop :=
  t.bus.req = some ⟨.host e false, a, w, second, true⟩ ∨ t.port.cur = some ⟨.host e false, a, w, second, true⟩

/-- The host's write of w to a can complete at this event: it holds the port, or the host and the port are free (log 7). -/
structure Completing (s : State) (a : Addr) (w : MWord) (e : OnEnd) : Prop where
  memory : MemoryForm s
  running : s.startup = .running
  queue : s.bus.queue = []
  held : s.bus.held = none
  req : s.bus.req = none
  staging : s.bus.staging = none
  port : s.port.cur = none ∨ s.port.cur = some ⟨.host e false, a, some w, none, true⟩

/-- The access at the port, when it ends, leaves no host access under way. -/
structure LastHost (s : State) : Prop where
  queue : s.bus.queue = []
  held : s.bus.held = none
  req : s.bus.req = none

/-- A post of the word w to camera c can complete, and none of its five words is faulty (R66, R68). -/
structure Posting (s : State) (c : Cam) (w : MWord) : Prop where
  completing : Completing s (addrOf s.base (mailboxOff c 0)) w (.post c)
  latches : postFaults (s.cam c) w = 0

/-- The host's command for an access: a read, or a write of a word (R151). -/
def hostCommand (a : Addr) : Option MWord → Instr
  | none => .hostRead a
  | some w => .hostWrite a w

/-- Every bit of the address that takes part in the entry's match agrees with its base (R154). -/
def Matches (f : Fence) (a : Addr) : Prop := ∀ i < 24, f.mask.getLsbD i = true → a.getLsbD i = f.base.getLsbD i

/-- An outside access is a hit on the entry (R154). -/
def HitBy (f : Fence) (a : Addr) (isWrite : Bool) : Prop :=
  Matches f a ∧ (f.mode = .fullGuard ∨ f.mode = .writeGuard ∧ isWrite = true)

/-- The address lies outside the region (R150). -/
def Outside (s : State) (a : Addr) : Prop := ∀ off : Offset, a ≠ addrOf s.base off

/-- The region words that pass host writes with no effect on the part (R152, with the places of R172 to R176). -/
def PassWord (off : Nat) : Prop :=
  off < 0x40 ∨ (0x80 ≤ off ∧ off < 0xC0 ∧ 5 ≤ off % 8) ∨ (0xC3 ≤ off ∧ off < 0x100) ∨
  (0x100 ≤ off ∧ off < 0x180 ∧ 6 ≤ off % 8) ∨ (0x180 ≤ off ∧ off < 0x200) ∨ (0x200 ≤ off ∧ off < 0x280 ∧ 5 ≤ off % 16) ∨
  (0x280 ≤ off ∧ off < 0x400) ∨ (0xA00 ≤ off ∧ off < 0xC00 ∧ 33 ≤ off % 64 ∧ (off % 64 < 48 ∨ 62 ≤ off % 64)) ∨
  (0x1000 ≤ off ∧ off < 0x4000) ∨ 0x8000 ≤ off

/-- The region words that refuse host writes and count in no blocked-write count (R152, with the places of R172 to R176). -/
def RefusedWord (off : Nat) : Prop :=
  (0x40 ≤ off ∧ off < 0x80 ∧ off ≠ 0x40 ∧ off ≠ 0x41 ∧ off ≠ 0x48 ∧ ¬(0x50 ≤ off ∧ off < 0x58) ∧ off ≠ 0x60) ∨ off = 0xC2 ∨
  (0x100 ≤ off ∧ off < 0x180 ∧ off % 8 = 5) ∨ (0x800 ≤ off ∧ off < 0xA00) ∨ (0xC00 ≤ off ∧ off < 0x1000)

/-- What the capture record holds after an error is handed on: the error when the record is empty or of a less severe class, what it held
otherwise (R167). -/
def captured (cls : ErrClass) (own : Bool) (a : Addr) (w : MWord) (e : ErrorRecord) : ErrorRecord :=
  if severity e.cls < severity cls then ⟨cls, own, a, w⟩ else e

/-- The state after an error of a class is handed to the Status Writer: its flag, and its place in the capture record (R167). -/
def withError (cls : ErrClass) (own : Bool) (a : Addr) (w : MWord) (s : State) : State :=
  { s with stat := { s.stat with flags := s.stat.flags ||| errFlag cls, capture := captured cls own a w s.stat.capture } }

/-- The state after the Interposer has tested a host write word (R159). -/
def tested (a : Addr) (w : MWord) (s : State) : State := if wordOk w then s else withError .passParity false a w s

/-- The state after a host access has ended (R151). -/
def hostEnds (a : Addr) (isWrite berr : Bool) (w : MWord) (s : State) : State :=
  { s with bus := { s.bus with ended := some ⟨a, isWrite, berr, w⟩ } }

/-- The state after a refused host access has ended: a bus error at once, and FENCE_HIT (R151). -/
def refused (a : Addr) (isWrite : Bool) (w : MWord) (s : State) : State :=
  hostEnds a isWrite true w { s with stat := { s.stat with flags := s.stat.flags ||| flagFenceHit } }

/-- The state with camera c replaced. -/
def withCam (c : Cam) (k : Camera) (s : State) : State := { s with cams := s.cams.set c k }

/-! Cameras -/

/-- Camera c after a result is recorded in its result group (R83). -/
def withResult (tag : BitVec 8) (kind : BitVec 4) (code : Code) (detail : BitVec 16) (k : Camera) : Camera :=
  { k with result := ⟨tag, kind, code, detail⟩, resultCount := k.resultCount + 1 }

/-- The flags a result sets (R85). -/
def resultFlags (code : Code) : BitVec 12 := if isRefusal code then flagCueResult ||| flagCueRefused else flagCueResult

/-- The state after the host's post of the word w has completed and recorded one result, camera c then being k (R66, R85). -/
def afterPost (s : State) (c : Cam) (w : MWord) (k : Camera) (code : Code) : State :=
  hostEnds (addrOf s.base (mailboxOff c 0)) true false w
    { s with cams := s.cams.set c k, stat := { s.stat with flags := s.stat.flags ||| resultFlags code } }

/-- The state after the host's post of the word w has completed and recorded no result, camera c then being k (R66). -/
def afterQuietPost (s : State) (c : Cam) (w : MWord) (k : Camera) : State :=
  hostEnds (addrOf s.base (mailboxOff c 0)) true false w { s with cams := s.cams.set c k }

/-- The command that posts a cue of a kind code (R70). -/
def postOf (kind : BitVec 4) (c : Cam) (tag : BitVec 8) (spare : BitVec 4) (par : BitVec 2) : Instr :=
  if kind = 1 then .goto c tag spare par
  else if kind = 2 then .ret c tag spare par
  else if kind = 3 then .halt c tag spare par
  else if kind = 4 then .resume c tag spare par
  else if kind = 5 then .abandon c tag spare par
  else if kind = 6 then .override c tag spare par
  else if kind = 7 then .flush c tag spare par
  else if kind = 8 then .capture c tag spare par
  else if kind = 9 then .direct c tag spare par
  else if kind = 10 then .release c tag spare par
  else if kind = 11 then .enable c tag spare par
  else if kind = 12 then .disable c tag spare par
  else .postUnknownKind c tag spare kind par

/-- A state with an active cue (R73). -/
def activeState : CamState → Bool
  | .fetching | .waiting | .moving | .halting | .halted => true
  | _ => false

/-- The states that refuse a cue of a kind code with WRONG_STATE, in the table of R70. -/
def refusedIn (kind : BitVec 4) (k : Camera) : Prop :=
  (kind = 1 ∨ kind = 2) ∧ k.state = .offline ∨
  kind = 3 ∧ movingState k.state = false ∨
  kind = 4 ∧ (enabledState k.state = false ∨ k.state = .halting ∧ k.abandon = true) ∨
  kind = 5 ∧ activeState k.state = false ∨
  (kind = 6 ∨ kind = 7 ∨ kind = 8) ∧ enabledState k.state = false ∨
  kind = 9 ∧ k.state ≠ .idle ∨ kind = 10 ∧ k.state ≠ .direct ∨ kind = 11 ∧ k.state ≠ .offline ∨ kind = 12 ∧ k.state = .offline

/-- The cue a post copies from its tag and the latches (R67, R72). -/
def postedCue (kind : MoveKind) (tag : BitVec 8) (k : Camera) : Cue :=
  { tag := tag, kind := kind, arg := k.latches[0].value, duration := k.latches[1].value, ramp := k.latches[2].value,
    level := k.latches[3].value.extractLsb' 0 2, push := k.latches[3].value.getLsbD 4, onAir := k.latches[3].value.getLsbD 5 }

/-- The posted cue asks to cut in, and the active cue is less urgent (R74). -/
def CutsIn (k : Camera) : Prop :=
  k.latches[3].value.getLsbD 6 = true ∧ ∃ q, k.active = some q ∧ (k.latches[3].value.extractLsb' 0 2).toNat < q.level.toNat

/-- No camera but c is in the set of waiting cameras (R105). -/
def NoneWaits (c : Cam) (s : State) : Prop := ∀ d : Cam, d ≠ c → inWaitingSet (s.cam d) = false

/-- The rate target of a move with no halt mark (R32). -/
def runningTarget (k : Camera) (cap : Nat) : Nat := if k.onAir then Nat.min k.override cap else k.override

/-- The cells after camera c has given back those it held outside a rectangle (R110). -/
def cellsGivenBack (f : FloorMap) (c : Cam) (r : Rect) : Grid Cell :=
  gridOf fun x y => if gridAt f.cells x y = .held c ∧ inRect r x y = false then .free else gridAt f.cells x y

/-- A camera that ends its active cue with a result and is IDLE: its reasons are emptied and its wait count discarded (R42, R73, R83,
R109). -/
def cueEnded (q : Cue) (code : Code) (detail : BitVec 16) (k : Camera) : Camera :=
  { withResult q.tag (moveKindCode q.kind) code detail k with
    active := none, state := .idle, waitStop := false, waitTally := false, waitFloor := false, waitCount := 0 }

/-! The head of the queue, and the Shot Engine's requests -/

/-- The next cue of the camera's queue, if there is one, is a GOTO. -/
def GotoNext (k : Camera) : Prop := ∀ q ∈ k.queue.head?, q.kind = .goto

/-- An IDLE camera after it has taken the GOTO at the head of its queue, and as it is when the queue is empty (R48). -/
def headTaken (k : Camera) : Camera :=
  match k.queue with
  | [] => k
  | q :: rest => { k with queue := rest, active := some q, state := .fetching }

/-- The Shot Engine after it has started the entry at the head of its FIFO, where no operation is in flight (R87). -/
def shotStarted (fifo : List ShotReq) (op : Option ShotOp) : ShotEngine :=
  match op, fifo with
  | none, r :: rest => ⟨rest, some ⟨r, [], 0, 1, false⟩, []⟩
  | _, _ => ⟨fifo, op, []⟩

/-- The Shot Engine once the fetch of the GOTO at the head of camera c's queue, if there is one, has joined its FIFO (R48, R87). -/
def headAsked (c : Cam) (k : Camera) (e : ShotEngine) : ShotEngine :=
  shotStarted (e.fifo ++ (k.queue.head?.map fun q => ⟨c, q.arg.toNat, q.tag, .fetch⟩).toList) e.op

/-- The Shot Engine without the requests that `p` names, those waiting and the one in flight (R88). -/
def shotWithout (p : ShotReq → Bool) (e : ShotEngine) : ShotEngine :=
  { e with fifo := e.fifo.filter (!p ·), op := e.op.filter fun o => !p o.req }

/-- A request waits in the FIFO or is in flight (R81). -/
def Outstanding (e : ShotEngine) (r : ShotReq) : Prop := r ∈ e.fifo ∨ ∃ o, e.op = some o ∧ o.req = r

/-! Planning, waiting and floor -/

/-- The return stack after a move begins, newest first: a RETURN has removed the top record, and PUSH has then placed the setpoints on
top, the fourth record being dropped where there were four (R54, R97). -/
def stackBegun (q : Cue) (k : Camera) : List Positions :=
  let left := if q.kind = .ret then k.stack.drop 1 else k.stack
  if q.push = true then (if left.length < 4 then k.setpoints :: left else k.setpoints :: left.take 3) else left

/-- A camera whose planned move begins: the stack is popped or pushed, its reasons and marks are clear, P is 0 and the rate stands at RT
(R54, R30, R32). -/
def moveBegun (q : Cue) (k : Camera) : Camera :=
  { k with
    halt := false, abandon := false, waitStop := false, waitTally := false, waitFloor := false, p := 0, waitCount := 0
    state := .moving, stack := stackBegun q k, rt := runningTarget k k.plan.c, rate := runningTarget k k.plan.c }

/-- A camera whose move has been planned and waits for the reasons given (R16, R25, R50, R109). -/
def movePlanned (pl : Plan) (claim : Option Rect) (stop tally floor : Bool) (k : Camera) : Camera :=
  { k with
    plan := pl, p := 0, rate := 0, q := 0, claim := claim, waitStop := stop, waitTally := tally, waitFloor := floor
    waitCount := if floor then 0 else k.waitCount, state := .waiting }

/-- The outcomes of a try of a claim (R106). -/
inductive Tried where
  | keepOut | denied | granted
  deriving DecidableEq, Repr

/-- What a try of camera c's claim r gives on the cells g (R106). -/
def TryGives (g : Grid Cell) (c : Cam) (r : Rect) : Tried → Prop
  | .keepOut => ∃ x y : Fin 32, inRect r x y = true ∧ gridAt g x y = .blocked
  | .denied =>
    (∀ x y : Fin 32, inRect r x y = true → gridAt g x y ≠ .blocked) ∧
    ∃ x y : Fin 32, ∃ d : Cam, d ≠ c ∧ inRect r x y = true ∧ gridAt g x y = .held d
  | .granted => ∀ x y : Fin 32, inRect r x y = true → gridAt g x y = .free ∨ gridAt g x y = .held c

/-- The cells after a try: a grant takes every FREE cell of the claim (R106). -/
def cellsTried (g : Grid Cell) (c : Cam) (r : Rect) : Tried → Grid Cell
  | .granted => gridOf fun x y => if inRect r x y = true ∧ gridAt g x y = .free then .held c else gridAt g x y
  | _ => g

/-- A waiting camera after a try of its claim: KEEP_OUT ends its cue q and it takes its next head, here a GOTO; a grant begins its move
(R106, R54). -/
def cameraTried (q : Cue) (r : Rect) (k : Camera) : Tried → Camera
  | .keepOut => headTaken (cueEnded q .keepOut 0 k)
  | .denied => k
  | .granted => { moveBegun q k with held := some r }

/-- The state with other cells. -/
def withCells (g : Grid Cell) (s : State) : State := { s with floor := { s.floor with cells := g } }

/-- What the planning of camera c's active cue q leads to, the camera then being k: `ends` is given the camera whose cue has ended with a
code, `goes` the cells and the camera whose cue goes on. NO_TRAVEL, TOO_LONG and, for a ROAMING camera, a BLOCKED cell in the claim end the
cue with the plan as it stood. Otherwise the plan and the claim are kept and the reasons formed: STOP with the latch, TALLY on air with an
off-air plan, FLOOR when the floor axes travel and a cell of the claim is not the camera's. With STOP or TALLY it waits; with FLOOR alone the
claim is tried; with none the move begins (R25, R50, R54, R104, R106). -/
structure PlanningGives (s : State) (c : Cam) (q : Cue) (k : Camera) (planned : Planned) (ends : Camera → Code → Prop)
    (goes : Grid Cell → Camera → Prop) : Prop where
  noTravel : ∀ detail : BitVec 7, planned = .noTravel detail → ends (cueEnded q .noTravel (detail.setWidth 16) k) .noTravel
  tooLong : planned = .tooLong → ends (cueEnded q .tooLong 0 k) .tooLong
  waits : ∀ pl : Plan, planned = .plan pl → k.cfg.kind ≠ some .roaming → k.stopLatch = true ∨ k.onAir = true ∧ pl.onAir = false →
    goes s.floor.cells (movePlanned pl none k.stopLatch (k.onAir && !pl.onAir) false k)
  begins : ∀ pl : Plan, planned = .plan pl → k.cfg.kind ≠ some .roaming → k.stopLatch = false → k.onAir = false ∨ pl.onAir = true →
    goes s.floor.cells (moveBegun q (movePlanned pl none false false false k))
  keepOut : ∀ (pl : Plan) (r : Rect), planned = .plan pl → k.cfg.kind = some .roaming →
    r = claimRect s.floor k.cfg.margin pl.origin pl.target →
    (∃ x y : Fin 32, inRect r x y = true ∧ gridAt s.floor.cells x y = .blocked) → ends (cueEnded q .keepOut 0 k) .keepOut
  roams : ∀ (pl : Plan) (r : Rect) (floor : Bool), planned = .plan pl → k.cfg.kind = some .roaming →
    r = claimRect s.floor k.cfg.margin pl.origin pl.target →
    (∀ x y : Fin 32, inRect r x y = true → gridAt s.floor.cells x y ≠ .blocked) →
    (floor = true ↔ (pl.delta[floorX] ≠ 0 ∨ pl.delta[floorY] ≠ 0) ∧
      ∃ x y : Fin 32, inRect r x y = true ∧ gridAt s.floor.cells x y ≠ .held c) →
    (k.stopLatch = true ∨ k.onAir = true ∧ pl.onAir = false →
      goes s.floor.cells (movePlanned pl (some r) k.stopLatch (k.onAir && !pl.onAir) floor k)) ∧
    (k.stopLatch = false → k.onAir = false ∨ pl.onAir = true →
      (floor = false → goes s.floor.cells (moveBegun q (movePlanned pl (some r) false false false k))) ∧
      ∀ o : Tried, floor = true → TryGives s.floor.cells c r o →
        goes (cellsTried s.floor.cells c r o) (cameraTried q r (movePlanned pl (some r) false false true k) o))

/-- The cells after camera c has given back all it held (R111). -/
def cellsLeft (f : FloorMap) (c : Cam) : Grid Cell :=
  gridOf fun x y => if gridAt f.cells x y = .held c then .free else gridAt f.cells x y

/-- The cells after the ACTIVE zone z has been removed (R116). -/
def cellsUnzoned (f : FloorMap) (z : Fin 16) : Grid Cell :=
  gridOf fun x y =>
    if f.zones[z].applied.any (inRect · x y) = true ∧ gridAt f.cells x y = .blocked ∧
        (∀ i : Fin 16, i ≠ z → f.zones[i].status = .active → f.zones[i].applied.any (inRect · x y) = false) then .free
    else gridAt f.cells x y

/-- The events that bring a release examination at the Cue Unit and at the zone table, with the cells the examination begins on: a DISABLE
of camera c, an ABANDON of a halted ROAMING camera c, and the removal of an ACTIVE zone (R107). -/
inductive Releases (s : State) : Instr → Cam → Grid Cell → Prop where
  | disable (c : Cam) (tag : BitVec 8) (spare : BitVec 4) (par : BitVec 2) :
    Posting s c (commandWord tag spare 12 par) → enabledState (s.cam c).state = true →
    Releases s (.disable c tag spare par) c (cellsLeft s.floor c)
  | disableAdopting (c : Cam) (tag : BitVec 8) (spare : BitVec 4) (par : BitVec 2) :
    Posting s c (commandWord tag spare 12 par) → (s.cam c).state = .adopting →
    Releases s (.disable c tag spare par) c s.floor.cells
  | abandon (c : Cam) (tag : BitVec 8) (spare : BitVec 4) (par : BitVec 2) :
    Posting s c (commandWord tag spare 5 par) → (s.cam c).state = .halted → (s.cam c).cfg.kind = some .roaming →
    (s.cam c).queue = [] →
    Releases s (.abandon c tag spare par) c
      (cellsGivenBack s.floor c
        (parkedRect s.floor (s.cam c).cfg.margin (s.cam c).setpoints[floorX] (s.cam c).setpoints[floorY]))
  | zone (z : Fin 16) (rest : BitVec 15) (par : BitVec 2) (c : Cam) :
    Completing s (addrOf s.base (zoneOff z 4)) ⟨rest ++ 0#1, par⟩ (.zoneEnable z) → wordOk ⟨rest ++ 0#1, par⟩ = true →
    s.floor.zones[z].status = .active → inWaitingSet (s.cam c) = false →
    Releases s (.zoneRemove z rest par) c (cellsUnzoned s.floor z)

/-- One waiting camera of a release examination: its active cue, its claim, and how its try comes out (R107). -/
structure ExamTry where
  cam : Cam
  cue : Cue
  claim : Rect
  outcome : Tried
  deriving DecidableEq, Repr

/-- The order of a release examination: by the level of the active cue, then by camera number (R107). -/
def ExamBefore (d e : ExamTry) : Prop := d.cue.level.toNat < e.cue.level.toNat ∨ d.cue.level = e.cue.level ∧ d.cam < e.cam

/-- The tries of an examination, one after another from the cells g, come out as the list says and leave the cells h (R107). -/
def TriesGive : Grid Cell → List ExamTry → Grid Cell → Prop
  | g, [], h => h = g
  | g, e :: rest, h => TryGives g e.cam e.claim e.outcome ∧ TriesGive (cellsTried g e.cam e.claim e.outcome) rest h

/-- One release examination of an event at which several cameras may give floor back: the camera that gives it back, and the tries that
follow (R107). -/
structure ExamRound where
  cam : Cam
  tries : List ExamTry
  deriving DecidableEq, Repr

/-- Every try of camera x in these examinations was denied. -/
def DeniedIn (rounds : List ExamRound) (x : Cam) : Prop := ∀ r ∈ rounds, ∀ e ∈ r.tries, e.cam = x → e.outcome = .denied

/-- The release examinations of one event, one after another from the cells g after those already made, leave the cells h: each camera keeps
its rectangle alone and frees its other cells, and the cameras that wait then are tried in their order. `waits c x` says that x waits at c's turn
unless an examination before has taken it out of the set (R107, R110). -/
def RoundsGive (f : FloorMap) (parked : Cam → Rect) (waits : Cam → Cam → Prop) : List ExamRound → Grid Cell → List ExamRound → Grid Cell → Prop
  | _, g, [], h => h = g
  | made, g, r :: rest, h =>
    (∀ x : Cam, waits r.cam x ∧ DeniedIn made x ↔ ∃ e ∈ r.tries, e.cam = x) ∧ r.tries.Pairwise ExamBefore ∧
    ∃ m, TriesGive (cellsGivenBack { f with cells := g } r.cam (parked r.cam)) r.tries m ∧ RoundsGive f parked waits (made ++ [r]) m rest h

/-- Every camera tried in the examinations is shown with its active cue and its claim, and its next head is a GOTO. -/
def TriesOf (s : State) (rounds : List ExamRound) : Prop :=
  ∀ r ∈ rounds, ∀ e ∈ r.tries, (s.cam e.cam).active = some e.cue ∧ (s.cam e.cam).claim = some e.claim ∧ GotoNext (s.cam e.cam)

/-- The active cue q of camera c ends ABANDONED where the camera stands: the camera before it takes a head, the Shot Engine and the cells.
A fetch is cancelled; a halted ROAMING camera, here with no other camera waiting for floor, gives back what it holds outside its parked
rectangle (R49, R53, R58, R59, R88, R110). -/
inductive CueGivenUp (s : State) (c : Cam) (q : Cue) : Camera → ShotEngine → Grid Cell → Prop where
  | fetching : (s.cam c).state = .fetching →
    CueGivenUp s c q (cueEnded q .abandoned 0 (s.cam c)) (shotWithout (fetchOf c) s.shot) s.floor.cells
  | waiting : (s.cam c).state = .waiting → CueGivenUp s c q (cueEnded q .abandoned 0 (s.cam c)) s.shot s.floor.cells
  | halted : (s.cam c).state = .halted → (s.cam c).cfg.kind ≠ some .roaming →
    CueGivenUp s c q { cueEnded q .abandoned 0 (s.cam c) with halt := false, abandon := false } s.shot s.floor.cells
  | parked (r : Rect) : (s.cam c).state = .halted → (s.cam c).cfg.kind = some .roaming → NoneWaits c s →
    r = parkedRect s.floor (s.cam c).cfg.margin (s.cam c).setpoints[floorX] (s.cam c).setpoints[floorY] →
    CueGivenUp s c q { cueEnded q .abandoned 0 (s.cam c) with halt := false, abandon := false, held := some r } s.shot
      (cellsGivenBack s.floor c r)

/-! The Status Writer -/

/-- The place of an item in the order of R168. -/
def itemRank : StatusItem → Nat
  | .flags => 0
  | .capture => 1
  | .lineState => 2
  | .syncGroup => 3
  | .missed => 4
  | .hits n => 5 + n.val
  | .probe => 13
  | .zone z => 14 + z.val
  | .record c => 30 + c.val
  | .cell x y => 38 + 32 * y.val + x.val

/-- Whether a mark stands, as one bit of a word's value. -/
def bitAt (b : Bool) (i : Nat) : Nat := if b then 2 ^ i else 0

/-- Half i of a count's pair: its low half for an even i, its high half for an odd one (R1). -/
def pairHalf (v : Int) (i : Nat) : BitVec 16 := if i % 2 = 0 then lowHalf v else highHalf v

/-- Word i of the status record of a camera with the sequence number n, by the table of R175. -/
def recordWord (n : BitVec 16) (k : Camera) (i : Nat) : BitVec 16 :=
  if i = 0 ∨ i = 63 then n
  else if i = 1 then camStateCode k.state
  else if i = 2 then
    BitVec.ofNat 16
      (bitAt k.waitStop 0 + bitAt k.waitTally 1 + bitAt k.waitFloor 2 + bitAt k.halt 4 + bitAt k.abandon 5 + bitAt k.stopLatch 6 +
        bitAt k.onAir 7 + bitAt k.stale 8)
  else if i = 3 then k.cfg.mask.setWidth 16
  else if i = 4 then (match k.active with | some q => q.tag.setWidth 16 | none => 0)
  else if i = 5 then (match k.active with | some q => (moveKindCode q.kind).setWidth 16 | none => 0)
  else if i = 6 then (match k.active with | some q => q.level.setWidth 16 | none => 0)
  else if i = 7 then (match k.active with | some q => if q.kind = .goto then q.arg else 0 | none => 0)
  else if i = 8 then BitVec.ofNat 16 k.plan.n
  else if i = 9 then BitVec.ofNat 16 k.plan.r
  else if i = 10 then BitVec.ofNat 16 k.p
  else if i = 11 then BitVec.ofNat 16 (k.p / 65536)
  else if i = 12 then BitVec.ofNat 16 k.q
  else if i = 13 then BitVec.ofNat 16 (k.q / 65536)
  else if i = 14 then BitVec.ofNat 16 k.rate
  else if i = 15 then BitVec.ofNat 16 k.rt
  else if i = 16 then BitVec.ofNat 16 k.plan.c
  else if i = 17 then BitVec.ofNat 16 k.override
  else if i < 32 then pairHalf k.setpoints[Fin.ofNat 7 ((i - 18) / 2)] i
  else if i = 32 then BitVec.ofNat 16 k.queue.length
  else if i < 37 then (match k.queue[i - 33]? with | some q => q.tag.setWidth 16 | none => 0)
  else if i = 37 then BitVec.ofNat 16 k.stack.length
  else if i = 38 then k.result.tag.setWidth 16
  else if i = 39 then k.result.kind.setWidth 16
  else if i = 40 then codeValue k.result.code
  else if i = 41 then k.result.detail
  else if i = 42 then k.resultCount
  else if i = 43 then BitVec.ofNat 16 k.blocked
  else if i < 49 then
    match k.held with
    | some r => BitVec.ofNat 16 (if i = 44 then r.x0 else if i = 45 then r.y0 else if i = 46 then r.x1 else if i = 47 then r.y1 else 1)
    | none => 0
  else 0

/-- The words an item is written as when it is taken up now, in their order, each with its offset, by the tables of R172 to R176. A status
record carries its sequence number raised by one (R170). -/
def itemTable (s : State) : StatusItem → List (Nat × BitVec 16)
  | .flags => [(0x40, s.stat.flags.setWidth 16)]
  | .capture =>
    [(0x60, errCode s.stat.capture.cls), (0x61, if s.stat.capture.own then 1 else 0), (0x62, s.stat.capture.addr.extractLsb' 0 16),
      (0x63, (s.stat.capture.addr.extractLsb' 16 8).setWidth 16), (0x64, s.stat.capture.word.data),
      (0x65, s.stat.capture.word.par.setWidth 16)]
  | .lineState =>
    [(0x43, BitVec.ofNat 16
      (bitAt s.lines.onAir[0] 0 + bitAt s.lines.onAir[1] 1 + bitAt s.lines.onAir[2] 2 + bitAt s.lines.onAir[3] 3 +
        bitAt s.lines.onAir[4] 4 + bitAt s.lines.onAir[5] 5 + bitAt s.lines.onAir[6] 6 + bitAt s.lines.onAir[7] 7 + bitAt s.lines.stop 8))]
  | .syncGroup =>
    [(0x44, syncCode s.timer.sync), (0x46, s.timer.frame.extractLsb' 0 16), (0x47, s.timer.frame.extractLsb' 16 16)]
  | .missed => [(0x48, BitVec.ofNat 16 s.timer.missed)]
  | .hits n => [(0x50 + n.val, BitVec.ofNat 16 s.fences[n].hits)]
  | .probe => [(0xC2, s.stat.probe)]
  | .zone z => [(0x105 + 8 * z.val, zoneCode s.floor.zones[z].status)]
  | .record c => (List.range 64).map fun i => (0x800 + 64 * c.val + i, recordWord (s.stat.seq[c] + 1) (s.cam c) i)
  | .cell x y => [(0xC00 + 32 * y.val + x.val, cellCode (gridAt s.floor.cells x y))]

/-- The Status Writer holds the port with the first of an item's words, each at the address its offset gives, the others to follow (R168). -/
def Writes (i : StatusItem) (base : BitVec 2) (words : List (Nat × BitVec 16)) (t : State) : Prop :=
  ∃ off d rest, words = (off, d) :: rest ∧
    t.port.cur = some ⟨.status i, addrOf base (BitVec.ofNat 16 off), some (goodWord d), none, true⟩ ∧ t.stat.item = some i ∧
    t.stat.rest = rest.map fun p => (addrOf base (BitVec.ofNat 16 p.1), p.2)

/-- The first write of the item holds the port: the item has been taken up at this event, by the Status Writer or by the load (R168). -/
def TakenUp (i : StatusItem) (t : State) : Prop :=
  ∃ acc, t.port.cur = some acc ∧
    (acc.owner = .status i ∨ ∃ n, acc.owner = .startupWrite n ∧ loadItem n = some (i, true))

/-- What a status record shows of the things R169 lists: state, marks and reasons, mask, active cue, queue, return stack, result count,
blocked-write count and held rectangle. -/
def recordReport (k : Camera) : List (BitVec 16) × List Positions :=
  ([camStateCode k.state, marksWord k, k.cfg.mask.setWidth 16] ++ activeWords k ++ [natWord k.queue.length] ++ queueWords k ++
    [k.resultCount, natWord k.blocked] ++ heldWords k, k.stack)

/-- What an item reports has changed from s to t, as far as the change makes the item due: of the flags only those newly set count (R165), of the
sync group the sync state (R168), and of a record what R169 lists; the frame counter, plan values and setpoints do not (log 38). -/
def ReportChanged (s t : State) : StatusItem → Prop
  | .flags => ∃ b < 12, s.stat.flags.getLsbD b = false ∧ t.stat.flags.getLsbD b = true
  | .capture => t.stat.capture ≠ s.stat.capture
  | .lineState => t.lines.onAir ≠ s.lines.onAir ∨ t.lines.stop ≠ s.lines.stop
  | .syncGroup => t.timer.sync ≠ s.timer.sync
  | .missed => t.timer.missed ≠ s.timer.missed
  | .hits n => t.fences[n].hits ≠ s.fences[n].hits
  | .probe => t.stat.probe ≠ s.stat.probe
  | .zone z => t.floor.zones[z].status ≠ s.floor.zones[z].status
  | .record c => recordReport (t.cam c) ≠ recordReport (s.cam c)
  | .cell x y => gridAt t.floor.cells x y ≠ gridAt s.floor.cells x y

/-! The port -/

/-- The rank of an own access at the arbiter: the Setpoint Writer, the Shot Engine, the adoption and start-up accesses, the Status Writer
(R161). -/
def ownRank : Owner → Option (Fin 4)
  | .host _ _ => none
  | .writeOut _ _ _ | .fill _ => some 0
  | .fetch | .capture => some 1
  | .adoption _ | .startupRead _ | .startupWrite _ => some 2
  | .status _ => some 3

/-- The own requester of a rank asks for the port (R133, R140, R87, R44, R164, R168). -/
def Asks (s : State) : Fin 4 → Prop
  | 0 => s.setp.writeOuts ≠ [] ∨ ∃ c a axes rest, s.setp.fills = ⟨c, a :: axes⟩ :: rest
  | 1 => s.shot.op.isSome = true
  | 2 =>
    (∃ n, s.startup = .reading n) ∨ (∃ n, s.startup = .writing n) ∨
    s.startup = .running ∧ ∃ c rest ad, s.adoptQueue = c :: rest ∧ (s.cam c).adoption = some ad ∧ (adoptNext c ad.taken).isSome = true
  | 3 => s.startup = .running ∧ (s.stat.rest ≠ [] ∧ s.stat.item.isSome = true ∨ ∃ i, itemDue i s.stat = true)

/-- The axes of a mask that come before an axis. -/
def axesBefore (m : BitVec 7) (a : Axis) : Nat := ((List.finRange 7).filter fun b => decide (b < a) && inMask m b).length

/-- The word an adoption of camera c reads after those it has taken: the eight general config words, the ten words of each axis of the
formed mask, the control word of the frame, and, where that is VALID, the pairs of its active bank (R44, with the places of R174 and R176). -/
inductive AdoptionReads (c : Cam) (taken : List (Option (BitVec 16))) : Offset → Prop where
  | general : taken.length < 8 → AdoptionReads c taken (configOff c taken.length)
  | axis (a : Axis) (i : Nat) : i < 10 → inMask (adoptMask taken) a = true →
    taken.length = 8 + 10 * axesBefore (adoptMask taken) a + i → AdoptionReads c taken (configOff c (16 + 16 * a.val + i))
  | control : taken.length = 8 + 10 * (maskAxes (adoptMask taken)).length → AdoptionReads c taken (frameOff c 0)
  | bank (a : Axis) (h : Nat) : h < 2 → inMask (adoptMask taken) a = true →
    (takenWord taken (8 + 10 * (maskAxes (adoptMask taken)).length)).getLsbD 15 = true →
    taken.length = 9 + 10 * (maskAxes (adoptMask taken)).length + 2 * axesBefore (adoptMask taken) a + h →
    AdoptionReads c taken
      (frameOff c
        ((if (takenWord taken (8 + 10 * (maskAxes (adoptMask taken)).length)).getLsbD 14 = true then 19 else 3) + 2 * a.val + h))

/-- The second word of a fill's pair is at the port, and the host presents no further access: the end of the write frees the port and
changes nothing that a requester asks for. -/
structure FillEnding (s : State) (c : Cam) (a : Addr) (w : MWord) : Prop where
  memory : MemoryForm s
  port : s.port.cur = some ⟨.fill c, a, some w, none, true⟩
  queue : s.bus.queue = []
  shot : ShotQuiet s.shot

/-- The command ends the access at the port, which is then free, and no result comes of it. The requests that count at the grant are those of
u: the state with what the end itself does to them, and with the host's next access where one is presented (R161; log 32). -/
inductive PortFrees (s : State) : Instr → State → Prop where
  | fill (c : Cam) (a : Addr) (w : MWord) : s.port.cur = some ⟨.fill c, a, some w, none, true⟩ → s.bus.queue = [] → ShotQuiet s.shot →
    PortFrees s .directFillWriteEnd s
  | writeOut (c : Cam) (k : Bank) (a : Addr) (w : MWord) : s.port.cur = some ⟨.writeOut c k false, a, some w, none, true⟩ →
    s.bus.queue = [] → ShotQuiet s.shot → PortFrees s .writeOutWriteEnd s
  | control (c : Cam) (k : Bank) (a : Addr) (w : MWord) : s.port.cur = some ⟨.writeOut c k true, a, some w, none, true⟩ →
    s.bus.queue = [] → ShotQuiet s.shot →
    PortFrees s .writeOutWriteEnd { s with setp := { s.setp with writeOuts := s.setp.writeOuts.filter (·.cam != c) } }
  | capture (o : ShotOp) (a : Addr) (w : MWord) : s.port.cur = some ⟨.capture, a, some w, none, true⟩ → s.bus.queue = [] →
    ShotQuiet s.shot → s.shot.op = some o → o.written < 16 → PortFrees s .captureWriteEnd s
  | fetch (o : ShotOp) (a : Addr) (w : MWord) : s.port.cur = some ⟨.fetch, a, none, none, true⟩ → s.bus.queue = [] →
    ShotQuiet s.shot → s.shot.op = some o → o.words.length < 16 → wordOk w = true → (o.words = [] → w.data.getLsbD 15 = true) →
    PortFrees s (.fetchReadEnd (some w)) s
  | adoption (c : Cam) (a : Addr) (w : MWord) (ad : Adoption) : s.port.cur = some ⟨.adoption c, a, none, none, true⟩ →
    s.bus.queue = [] → ShotQuiet s.shot → (s.cam c).adoption = some ad → wordOk w = true →
    (adoptNext c (ad.taken ++ [some w.data])).isSome = true →
    PortFrees s (.adoptionReadEnd (some w))
      (withCam c { s.cam c with adoption := some { ad with taken := ad.taken ++ [some w.data] } } s)
  | loadRead (n : Nat) (a : Addr) (w : MWord) : n < 133 → s.port.cur = some ⟨.startupRead n, a, none, none, true⟩ →
    s.bus.queue = [] → ShotQuiet s.shot →
    PortFrees s (.startupReadEnd (some w)) { s with startup := if n = 132 then .writing 0 else .reading (n + 1) }
  | loadWrite (n : Nat) (a : Addr) (w : MWord) : n < 1616 → s.port.cur = some ⟨.startupWrite n, a, some w, none, true⟩ →
    s.bus.queue = [] → ShotQuiet s.shot → PortFrees s .startupWriteEnd { s with startup := .writing (n + 1) }
  | status (i : StatusItem) (a : Addr) (w : MWord) : s.port.cur = some ⟨.status i, a, some w, none, true⟩ → s.bus.queue = [] →
    ShotQuiet s.shot → PortFrees s .statusWriteEnd s
  | hostWrite (a : Addr) (w : MWord) (answer : Option MWord) : s.port.cur = some ⟨.host .nothing false, a, some w, none, true⟩ →
    LastHost s → ShotQuiet s.shot → PortFrees s (.hostAccessEnd answer) s
  | hostRead (a : Addr) (w : MWord) : s.port.cur = some ⟨.host .nothing false, a, none, none, true⟩ → LastHost s → ShotQuiet s.shot →
    wordOk w = true → PortFrees s (.hostAccessEnd (some w)) s
  | hostNext (a : Addr) (w : MWord) (answer : Option MWord) (off : Offset) : s.startup = .running →
    s.port.cur = some ⟨.host .nothing false, a, some w, none, true⟩ → s.bus.queue = [⟨addrOf s.base off, none⟩] → s.bus.held = none →
    s.bus.req = none → s.bus.staging = none → ShotQuiet s.shot →
    PortFrees s (.hostAccessEnd answer)
      { s with bus := { s.bus with req := some ⟨.host .nothing false, addrOf s.base off, none, none, true⟩ } }

/-- Read n of the load is of the word at an offset: the setting words, then the five words of each fence entry and of each zone entry (R164,
with the places of R172 and R173). -/
def LoadReads (n off : Nat) : Prop :=
  n < 13 ∧ off = n ∨ (∃ k < 5, ∃ e < 8, n = 13 + 5 * e + k ∧ off = 0x80 + 8 * e + k) ∨
    (∃ k < 5, ∃ e < 16, n = 53 + 5 * e + k ∧ off = 0x100 + 8 * e + k)

/-- Write n of the load puts a value at an offset: the words of the device block that hold a field, the probe result, the status records, the
zone statuses and the floor image; the first word of a record raises its sequence number (R164, R170, with the places of R172 to R176; logs 15
and 37). -/
def LoadWrites (s : State) (n off : Nat) (word : BitVec 16) : Prop :=
  (n < 64 ∧ off = 0x40 + n ∧ ((∃ i, (off, word) ∈ itemTable s i) ∨ n = 1 ∧ word = s.stat.mask.setWidth 16 ∨ n = 2 ∧ word = 1)) ∨
  (n = 64 ∧ (off, word) ∈ itemTable s .probe) ∨
  (∃ (c : Cam) (k : Nat), k < 64 ∧ n = 65 + 64 * c.val + k ∧ off = 0x800 + 64 * c.val + k ∧
    word = recordWord (if k = 0 then s.stat.seq[c] + 1 else s.stat.seq[c]) (s.cam c) k) ∨
  (∃ z : Fin 16, n = 577 + z.val ∧ (off, word) ∈ itemTable s (.zone z)) ∨
  (∃ x y : Fin 32, n = 593 + 32 * y.val + x.val ∧ (off, word) ∈ itemTable s (.cell x y))

/-- The load alone asks for the port: no host access, write-out, fill or Shot Engine operation stands. -/
structure LoadAlone (s : State) : Prop where
  req : s.bus.req = none
  writeOuts : s.setp.writeOuts = []
  fills : s.setp.fills = []
  shot : s.shot = ⟨[], none, []⟩

/-! Ticks -/

/-- The rate after the slew: below RT it rises by the slew step, above RT it falls by it, and it stops at RT (R33 step 1). -/
def rateAfter (k : Camera) : Nat :=
  if k.rate < k.rt then Nat.min (k.rate + k.cfg.slew) k.rt
  else if k.rt < k.rate then Nat.max (k.rate - k.cfg.slew) k.rt
  else k.rate

/-- P after the advance: it rises by the new rate and stops at N' (R33 step 2). -/
def progressAfter (k : Camera) : Nat := Nat.min (k.p + rateAfter k) k.plan.n'

/-- The step size S of an axis in DIRECT: 0 while the stop latch is set, Von on air, and Voff otherwise (R141). -/
def stepSize (k : Camera) (a : Axis) : Nat :=
  if k.stopLatch then 0 else if k.onAir then k.cfg.axes[a].von else k.cfg.axes[a].voff

/-- The setpoint of a present axis in DIRECT after a step toward its direct target v: v when it is at most S away, and otherwise moved by
exactly S toward it (R141). -/
def steppedTo (k : Camera) (a : Axis) (v : Int) : Int :=
  if (v - k.setpoints[a]).natAbs ≤ stepSize k a then v
  else if k.setpoints[a] < v then k.setpoints[a] + stepSize k a
  else k.setpoints[a] - stepSize k a

/-- A MOVING or HALTING camera after the slew, the advance and the position of a serviced tick, and any other as it was but for the step of
DIRECT (R33, R141). The setpoints and Q of a progress are those of R27 and R28, which MoveStaysOnItsWay gives. -/
def movedAtTick (k : Camera) : Camera :=
  if k.state = .moving ∨ k.state = .halting then
    { k with
      rate := rateAfter k, p := progressAfter k, setpoints := movePositions k.plan (progressAfter k)
      q := moveQ k.plan (progressAfter k) }
  else if k.state = .direct then
    { k with
      setpoints := positionsOf fun a =>
        match k.direct with
        | some t => if inMask k.cfg.mask a then steppedTo k a t[a] else k.setpoints[a]
        | none => k.setpoints[a] }
  else k

/-- The camera's move completes at the tick (R34). -/
def CompletesAtTick (k : Camera) : Prop := (k.state = .moving ∨ k.state = .halting) ∧ (movedAtTick k).p = k.plan.n'

/-- The halting camera comes to rest at the tick (R35). -/
def RestsAtTick (k : Camera) : Prop := k.state = .halting ∧ (movedAtTick k).p ≠ k.plan.n' ∧ (movedAtTick k).rate = 0

/-- A camera whose begun move has ended: its cue q has its result and both marks are clear; a ROAMING camera holds its parked rectangle at
the floor place given; it then takes its next head, here a GOTO (R56, R59, R48). -/
def moveEnded (f : FloorMap) (q : Cue) (code : Code) (detail : BitVec 16) (place : Positions) (k : Camera) : Camera :=
  headTaken
    { cueEnded q code detail k with
      halt := false, abandon := false
      held := if k.cfg.kind = some .roaming then some (parkedRect f k.cfg.margin place[floorX] place[floorY]) else k.held }

/-- The assertion of the stop line ends this camera's move, and it gives back floor, which brings a release examination (R60, R110). -/
def StopEndsClaim (k : Camera) : Prop := k.state = .halting ∧ k.abandon = true ∧ k.cfg.kind = some .roaming

/-- A camera tried at the stop line's assertion before its own turn, after that turn: a move that has begun comes to rest, and it is latched
(R60). -/
def stopTaken (k : Camera) : Camera :=
  if k.state = .moving then { k with stopLatch := true, halt := true, rate := 0, rt := 0, state := .halted } else { k with stopLatch := true }

/-- What a serviced tick does to a camera outside the set of waiting cameras (R33 to R35, R56, R57, R59, R128, R141). -/
structure ServedAtTick (s t : State) (c : Cam) : Prop where
  still : ¬CompletesAtTick (s.cam c) → ¬RestsAtTick (s.cam c) → t.cam c = movedAtTick (s.cam c)
  completes : ∀ q : Cue, CompletesAtTick (s.cam c) → (s.cam c).active = some q → GotoNext (s.cam c) →
    t.cam c =
      moveEnded s.floor q (if (s.cam c).plan.detail = 0 then .done else .doneClamped) ((s.cam c).plan.detail.setWidth 16)
        (s.cam c).plan.target (movedAtTick (s.cam c))
  halts : RestsAtTick (s.cam c) → (s.cam c).abandon = false → t.cam c = { movedAtTick (s.cam c) with state := .halted }
  abandons : ∀ q : Cue, RestsAtTick (s.cam c) → (s.cam c).abandon = true → (s.cam c).active = some q → GotoNext (s.cam c) →
    t.cam c = moveEnded s.floor q .abandoned 0 (movedAtTick (s.cam c)).setpoints (movedAtTick (s.cam c))

/-- A waiting camera after a tick has counted its wait (R109). -/
def waitCounted (k : Camera) : Camera := { k with waitCount := Nat.min 65535 (k.waitCount + 1) }

/-- The camera waits for floor and the tick brings its count to its limit (R109). -/
def WaitEnds (k : Camera) : Prop :=
  inWaitingSet k = true ∧ k.cfg.floorLimit ≠ 0 ∧ k.cfg.floorLimit ≤ Nat.min 65535 (k.waitCount + 1)

/-- The ROAMING camera's move completes or is abandoned at the tick: it gives back floor, and a release examination follows (R107). -/
def EndsAtTick (k : Camera) : Prop := k.cfg.kind = some .roaming ∧ (CompletesAtTick k ∨ RestsAtTick k ∧ k.abandon = true)

/-- The parked rectangle a camera keeps whose move ends at the tick: at the target of a completed move, and where the camera stands otherwise
(R110). -/
def parkedAtTick (f : FloorMap) (k : Camera) : Rect :=
  if (movedAtTick k).p = k.plan.n' then parkedRect f k.cfg.margin k.plan.target[floorX] k.plan.target[floorY]
  else parkedRect f k.cfg.margin (movedAtTick k).setpoints[floorX] (movedAtTick k).setpoints[floorY]

/-- The release examinations of a serviced tick, one for each ROAMING camera whose move ends at it, in ascending camera number: every camera of
the set of waiting cameras is tried but one that an examination before has taken out of the set or whose wait, its number being lower, has ended at
this tick. What each camera tried then is: the outcome's where it was not denied; else its wait is counted, and ends at the limit (R107, R109; log
22). -/
structure ExaminedAtTick (s t : State) (rounds : List ExamRound) (h : Grid Cell) : Prop where
  cells : t.floor.cells = h
  tried : ∀ r ∈ rounds, ∀ e ∈ r.tries, e.outcome ≠ .denied → t.cam e.cam = cameraTried e.cue e.claim (waitCounted (s.cam e.cam)) e.outcome
  denied : ∀ x : Cam, inWaitingSet (s.cam x) = true → DeniedIn rounds x →
    (¬WaitEnds (s.cam x) → t.cam x = waitCounted (s.cam x)) ∧
    ∀ q : Cue, WaitEnds (s.cam x) → (s.cam x).active = some q → t.cam x = headTaken (cueEnded q .floorTimeout 0 (s.cam x))

/-- What a tick does to the wait of a camera in the set of waiting cameras: the count rises, and at the limit the cue q ends FLOOR_TIMEOUT
(R109). -/
structure CountedAtTick (s t : State) (c : Cam) : Prop where
  counts : (s.cam c).cfg.floorLimit = 0 ∨ Nat.min 65535 ((s.cam c).waitCount + 1) < (s.cam c).cfg.floorLimit →
    t.cam c = waitCounted (s.cam c)
  expires : ∀ q : Cue, (s.cam c).cfg.floorLimit ≠ 0 → (s.cam c).cfg.floorLimit ≤ Nat.min 65535 ((s.cam c).waitCount + 1) →
    (s.cam c).active = some q → GotoNext (s.cam c) → t.cam c = headTaken (cueEnded q .floorTimeout 0 (s.cam c))

/-- A tick: the frame counter rises; with every write-out finished the tick is serviced, and a write-out is formed for each enabled camera
in the order of the rotation pointer as it stood, which advances; otherwise it is missed and moves no camera (R127, R128, R129, R133; log 34).
The step of a waiting camera is given where no ROAMING camera ends its move at the tick, and where some do with the release examinations
they bring, in ascending camera number (R107; log 22). The status interval counts it (R170). -/
structure Ticked (s t : State) : Prop where
  frame : t.timer.frame = s.timer.frame + 1
  missedCount : t.timer.missed = if s.setp.writeOuts = [] then s.timer.missed else Nat.min 255 (s.timer.missed + 1)
  served : s.setp.writeOuts = [] → ∀ c : Cam, inWaitingSet (s.cam c) = false → ServedAtTick s t c
  waits : s.setp.writeOuts = [] →
    (∀ d : Cam, ¬EndsAtTick (s.cam d)) → ∀ c : Cam, inWaitingSet (s.cam c) = true → CountedAtTick s t c
  examined : s.setp.writeOuts = [] → ∀ (rounds : List ExamRound) (h : Grid Cell),
    (∀ d : Cam, EndsAtTick (s.cam d) ↔ ∃ r ∈ rounds, r.cam = d) → rounds.Pairwise (·.cam < ·.cam) →
    (∀ d : Cam, EndsAtTick (s.cam d) ∨ WaitEnds (s.cam d) → GotoNext (s.cam d)) → TriesOf s rounds →
    RoundsGive s.floor (fun d => parkedAtTick s.floor (s.cam d))
      (fun d x => inWaitingSet (s.cam x) = true ∧ ¬(x < d ∧ WaitEnds (s.cam x))) [] s.floor.cells rounds h →
    ExaminedAtTick s t rounds h
  written : s.setp.writeOuts = [] →
    t.setp.pointer = s.setp.pointer + 1 ∧
    t.setp.writeOuts.map writeOutPlan =
      (((List.finRange 8).map fun i => s.setp.pointer + i).filter fun c => enabledState (s.cam c).state).map fun c =>
        (c, otherBank (s.cam c).activeBank, s.timer.frame + 1,
          positionsOf fun a => if inMask (s.cam c).cfg.mask a then (t.cam c).setpoints[a] else 0)
  missed : s.setp.writeOuts ≠ [] →
    t.stat.flags &&& flagFrameMissed = flagFrameMissed ∧ t.setp.pointer = s.setp.pointer ∧
    t.setp.writeOuts.map writeOutPlan = s.setp.writeOuts.map writeOutPlan ∧
    (∀ c : Cam, inWaitingSet (s.cam c) = false → t.cam c = s.cam c) ∧
    ∀ c : Cam, inWaitingSet (s.cam c) = true → CountedAtTick s t c
  counted : s.stat.count + 1 < s.stat.interval → t.stat.count = s.stat.count + 1
  interval : s.stat.interval ≤ s.stat.count + 1 →
    t.stat.count = 0 ∧
    (s.port.cur.isSome = true → t.stat.syncDue = true ∧
      ∀ c : Cam, (t.cam c).state = .moving ∨ (t.cam c).state = .halting ∨ (t.cam c).state = .direct → t.stat.recordDue[c] = true)

/-! Values brought into a range -/

/-- r is v brought into the range from lo to hi (00, Ranges). -/
def Clamped (lo hi v r : Int) : Prop := (v < lo → r = lo) ∧ (hi < v → r = hi) ∧ (lo ≤ v → v ≤ hi → r = v)

/-! Planning -/

/-- The target and the detail mask that stages 1 and 2 give a planning: the target of a present axis is clamped to the soft limits; an axis
whose speed is 0 and which would travel is held at its origin; the axes clamped or held are the mask (R19, R20). -/
structure StagesGive (cfg : CamConfig) (o : Positions) (req : MoveRequest) (target : Positions) (detail : BitVec 7) : Prop where
  absent : ∀ a : Axis, inMask cfg.mask a = false → target[a] = 0 ∧ detail.getLsbD a.val = false
  present : ∀ a : Axis, inMask cfg.mask a = true → ∃ v : Int, Clamped cfg.axes[a].min cfg.axes[a].max req.target[a] v ∧
    ((if req.onAir then cfg.axes[a].von else cfg.axes[a].voff) = 0 ∧ v ≠ o[a] → target[a] = o[a] ∧ detail.getLsbD a.val = true) ∧
    (¬((if req.onAir then cfg.axes[a].von else cfg.axes[a].voff) = 0 ∧ v ≠ o[a]) →
      target[a] = v ∧ (detail.getLsbD a.val = true ↔ v ≠ req.target[a]))

/-- The axis is present and travels from o to the target (R21). -/
def Travels (cfg : CamConfig) (o target : Positions) (a : Axis) : Prop := inMask cfg.mask a = true ∧ target[a] ≠ o[a]

/-- n frames are enough for the request: at least its duration, and for each travelling axis the ramp and the frames its travel takes at its
speed (R22). -/
def EnoughFrames (cfg : CamConfig) (o : Positions) (req : MoveRequest) (target : Positions) (n : Nat) : Prop :=
  req.duration ≤ n ∧ ∀ a : Axis, Travels cfg o target a →
    req.ramp ≤ n ∧ (target[a] - o[a]).natAbs ≤ (if req.onAir then cfg.axes[a].von else cfg.axes[a].voff) * (n - req.ramp)

/-- At the rate c, at most 256, every travelling axis keeps within its on-air speed (R24). -/
def WithinCap (cfg : CamConfig) (o target : Positions) (n r c : Nat) : Prop :=
  c ≤ 256 ∧ ∀ a : Axis, Travels cfg o target a → c * (target[a] - o[a]).natAbs ≤ 256 * cfg.axes[a].von * (n - r)

/-- lo and hi are the lesser and the greater of v and w. -/
def Between (v w lo hi : Int) : Prop := (lo = v ∧ hi = w ∨ lo = w ∧ hi = v) ∧ lo ≤ hi

/-- n is the least number with a property. -/
def Least (p : Nat → Prop) (n : Nat) : Prop := p n ∧ ∀ m, p m → n ≤ m

/-- n is the greatest number with a property. -/
def Greatest (p : Nat → Prop) (n : Nat) : Prop := p n ∧ ∀ m, p m → m ≤ n

/-! Invariants -/

/-- The companions of a camera's state fit it: the marks (R41), the wait reasons (R42), the active cue (R73), the direct targets (R62,
R63), the adoption (R43, R46, R47), the queue (R72) and the return stack (R96). -/
structure CompanionsFit (k : Camera) : Prop where
  active : k.active.isSome = activeState k.state
  adoption : k.adoption.isSome = decide (k.state = .adopting)
  direct : k.direct.isSome = decide (k.state = .direct)
  marksClear : movingState k.state = false → k.halt = false ∧ k.abandon = false
  moving : k.state = .moving → k.halt = false ∧ k.abandon = false
  halting : k.state = .halting → k.halt = true
  halted : k.state = .halted → k.halt = true ∧ k.abandon = false
  reasonsEmpty : k.state ≠ .waiting → k.waitStop = false ∧ k.waitTally = false ∧ k.waitFloor = false
  reasonsStand : k.state = .waiting → k.waitStop = true ∨ k.waitTally = true ∨ k.waitFloor = true
  idleQueue : k.state = .idle → k.queue = []
  queue : k.queue.length ≤ 4
  stack : k.stack.length ≤ 4

/-- Every camera's companions fit its state. -/
def CompanionsHold (s : State) : Prop := ∀ c : Cam, CompanionsFit (s.cam c)

/-- A count lies within the applied soft limits of an axis (R6). -/
def withinLimits (k : Camera) (a : Axis) (v : Int) : Prop := k.cfg.axes[a].min ≤ v ∧ v ≤ k.cfg.axes[a].max

/-- The plan of a move is one the planner makes: its scaled values and denominator are those of its duration and ramp, its travel is the
difference of its target and origin, and both lie within the soft limits of the present axes (R6, R21, R23). -/
structure PlanFits (k : Camera) : Prop where
  duration : 1 ≤ k.plan.n
  ramp : k.plan.r ≤ k.plan.n / 2
  scaled : k.plan.n' = 256 * k.plan.n ∧ k.plan.r' = 256 * k.plan.r
  denominator : k.plan.k = planK k.plan.n' k.plan.r'
  travel : ∀ a : Axis, k.plan.delta[a] = k.plan.target[a] - k.plan.origin[a]
  limits : ∀ a : Axis, inMask k.cfg.mask a = true →
    withinLimits k a k.plan.origin[a] ∧ withinLimits k a k.plan.target[a]
  progress : k.p ≤ k.plan.n'

/-- Every present axis of an enabled camera stands within its soft limits, with what it may move to (R6, R136). -/
structure LimitsFit (k : Camera) : Prop where
  setpoints : enabledState k.state = true → ∀ a : Axis, inMask k.cfg.mask a = true → withinLimits k a k.setpoints[a]
  plan : k.state = .waiting ∨ movingState k.state = true → PlanFits k
  direct : ∀ t : Positions, k.direct = some t →
    k.state = .direct ∧ ∀ a : Axis, inMask k.cfg.mask a = true → withinLimits k a t[a]
  adoption : k.adoption.isSome = true → k.state = .adopting

/-- The axes of an enabled camera keep their pace: Von is at most Voff (R7), and a planned move's travel needs no more than Voff for each
frame past the ramp (R22), the setpoints standing where its progress puts them (R27). -/
structure PaceFits (k : Camera) : Prop where
  speeds : enabledState k.state = true → ∀ a : Axis, inMask k.cfg.mask a = true → k.cfg.axes[a].von ≤ k.cfg.axes[a].voff
  waits : k.state = .waiting → k.p = 0
  travel : k.state = .waiting ∨ movingState k.state = true → ∀ a : Axis, inMask k.cfg.mask a = true →
    k.plan.delta[a].natAbs ≤ k.cfg.axes[a].voff * (k.plan.n - k.plan.r) ∧ k.setpoints[a] = (movePositions k.plan k.p)[a]

/-- Every camera keeps its pace. -/
def PaceHolds (s : State) : Prop := ∀ c : Cam, PaceFits (s.cam c)

/-- Every camera keeps its soft limits. -/
def LimitsHold (s : State) : Prop := ∀ c : Cam, LimitsFit (s.cam c)

/-- The cell (x, y) lies in the applied rectangle of an ACTIVE zone. -/
def inActiveZone (f : FloorMap) (x y : Fin 32) : Prop :=
  ∃ z : Fin 16, f.zones[z].status = .active ∧ f.zones[z].applied.any (inRect · x y) = true

/-- The BLOCKED cells are those of the ACTIVE zones, and the entries with an applied rectangle are the ACTIVE ones (R101, R113). -/
structure ZonesHold (s : State) : Prop where
  blocked : ∀ x y : Fin 32, gridAt s.floor.cells x y = .blocked ↔ inActiveZone s.floor x y
  applied : ∀ z : Fin 16, s.floor.zones[z].applied.isSome = decide (s.floor.zones[z].status = .active)

/-- Cells are HELD only by enabled ROAMING cameras (R103), and no other camera has a held rectangle or a claim. -/
structure HoldersRoam (s : State) : Prop where
  cells : ∀ (x y : Fin 32) (c : Cam), gridAt s.floor.cells x y = .held c →
    enabledState (s.cam c).state = true ∧ isRoaming (s.cam c) = true
  held : ∀ c : Cam, (s.cam c).held.isSome = true → enabledState (s.cam c).state = true ∧ isRoaming (s.cam c) = true
  claim : ∀ c : Cam, (s.cam c).claim.isSome = true → enabledState (s.cam c).state = true ∧ isRoaming (s.cam c) = true
  adoption : ∀ c : Cam, (s.cam c).adoption.isSome = true → (s.cam c).state = .adopting

/-- What an enabled ROAMING camera holds fits its state: both floor axes are present; standing, it holds the parked rectangle at its setpoints;
a planned move keeps its claim rectangle, which the held rectangle covers from the grant or from a planning that needs no floor; and DIRECT does
not move the floor axes (R103, R104, R106, R110, R139). -/
structure HeldFits (f : FloorMap) (k : Camera) : Prop where
  axes : inMask k.cfg.mask floorX = true ∧ inMask k.cfg.mask floorY = true
  parked : k.state = .idle ∨ k.state = .fetching ∨ k.state = .waiting ∨ k.state = .direct →
    k.held = some (parkedRect f k.cfg.margin k.setpoints[floorX] k.setpoints[floorY])
  claim : k.state = .waiting ∨ movingState k.state = true → k.claim = some (claimRect f k.cfg.margin k.plan.origin k.plan.target)
  covers : k.state = .waiting ∧ k.waitFloor = false ∨ movingState k.state = true →
    ∃ h, k.held = some h ∧ ∀ x y : Fin 32, inRect (claimRect f k.cfg.margin k.plan.origin k.plan.target) x y = true → inRect h x y = true
  direct : ∀ t : Positions, k.direct = some t → t[floorX] = k.setpoints[floorX] ∧ t[floorY] = k.setpoints[floorY]

/-- Until the load has ended no camera is in service and no host access is under way, and the load's accesses hold the port only then, one word
at a time (R43, R151, R164). -/
structure LoadComesFirst (s : State) : Prop where
  idle : s.startup ≠ .running → (∀ c : Cam, (s.cam c).state = .offline) ∧ s.bus.req = none ∧ s.bus.held = none
  host : s.startup ≠ .running → ∀ (x : Access) (e : OnEnd) (b : Bool), s.port.cur = some x → x.owner ≠ .host e b
  port : ∀ (x : Access) (n : Nat), s.port.cur = some x → x.owner = .startupRead n ∨ x.owner = .startupWrite n →
    s.startup ≠ .running ∧ x.second = none

/-- The law of the held set: a cell is HELD by a camera exactly where it lies in the camera's held rectangle (R103). -/
structure HeldSetHolds (s : State) : Prop where
  cells : ∀ (c : Cam) (x y : Fin 32), gridAt s.floor.cells x y = .held c ↔ (s.cam c).held.any (inRect · x y) = true
  fits : ∀ c : Cam, enabledState (s.cam c).state = true → isRoaming (s.cam c) = true → HeldFits s.floor (s.cam c)
  load : LoadComesFirst s

/-- The counters and rates stay in their ranges (R29, R31, R109, R129, R137, R155). -/
structure RangesHold (s : State) : Prop where
  hits : ∀ n : Fin 8, s.fences[n].hits ≤ 255
  missed : s.timer.missed ≤ 255
  blocked : ∀ c : Cam, (s.cam c).blocked ≤ 255
  override : ∀ c : Cam, 1 ≤ (s.cam c).override ∧ (s.cam c).override ≤ 256
  rate : ∀ c : Cam, (s.cam c).rate ≤ 256 ∧ (s.cam c).rt ≤ 256
  waitCount : ∀ c : Cam, (s.cam c).waitCount ≤ 65535

/-- Nothing waits for what is free: the host's presented accesses (R151), the requests of the Shot Engine (R87), and the requests for the
port (R161). -/
structure NothingIdle (s : State) : Prop where
  host : HostWaits s
  shot : ShotQuiet s.shot
  port : s.port.cur = none → s.bus.req = none ∧ ownGrants s = []

end Sys2Proof.Machine
end

