-- ==== Sys2Proof/Certificates/Slice0/Obligations.lean ====
section
/-! DEFINITION. The statements for the provers: each Obligations.<Name> is what its name says, with the rule of the spec it comes from in its
docstring. t is the state a command answers; Settled u t says that t is u in everything but memory and the port's own affairs, MemoryPut and
SameMemory say what memory reads. -/

open Sys2Proof Sys2Proof.Machine

/-! The queue of commands, reset and the start-up load -/

/-- A step takes the command at the front of the queue and executes it with the rest of the queue; on an empty queue the block idles (log
3: the model's choice). -/
def Obligations.StepTakesTheFrontCommand : Prop :=
  (∀ (c : Instr) (rest : List Instr) (s : State), step { s with pending := c :: rest } = exec c { s with pending := rest }) ∧
  ∀ s : State, s.pending = [] → step s = .next s

/-- RESETn leaves every camera OFFLINE with the values of R40, R16, R31, R65, R83, R103, R132 and R137, and the blocks with those of R87,
R101, R113, R120, R143, R153, R155, R157, R161, R165, R166 and R167; every setting stands at its default, every due mark is set, and every
record's sequence number and the interval count are 0 (R164, R168, R170); the pins and the waiting commands stand. A write at the port reached
memory or did not, as the command says (log 6: the model's choice). That the host access in flight, withheld or waiting for the port is given
up is the model's choice too (log 9). -/
def Obligations.ResetClearsThePart : Prop :=
  ∀ (landed : Bool) (s : State), ∃ t, exec (.resetAssert landed) s = .next t ∧
    (∀ c : Cam, (t.cam c).state = .offline ∧ (t.cam c).halt = false ∧ (t.cam c).abandon = false ∧ (t.cam c).waitStop = false ∧
      (t.cam c).waitTally = false ∧ (t.cam c).waitFloor = false ∧ (t.cam c).onAir = false ∧ (t.cam c).stopLatch = false ∧
      (t.cam c).stale = false ∧ (t.cam c).cfg = emptyConfig ∧ (t.cam c).adoption = none ∧ (t.cam c).plan = emptyPlan ∧
      (t.cam c).p = 0 ∧ (t.cam c).rate = 0 ∧ (t.cam c).rt = 0 ∧ (t.cam c).q = 0 ∧ (t.cam c).override = 256 ∧
      (∀ a : Axis, (t.cam c).setpoints[a] = 0) ∧ (t.cam c).direct = none ∧ (t.cam c).queue = [] ∧ (t.cam c).active = none ∧
      (t.cam c).stack = [] ∧ (∀ k : Fin 4, (t.cam c).latches[k] = ⟨0, true⟩) ∧ (t.cam c).result = ⟨0, 0, .none, 0⟩ ∧
      (t.cam c).resultCount = 0 ∧ (t.cam c).blocked = 0 ∧ (t.cam c).held = none ∧ (t.cam c).claim = none ∧
      (t.cam c).waitCount = 0 ∧ (t.cam c).activeBank = .b) ∧
    (∀ x y : Fin 32, gridAt t.floor.cells x y = .free) ∧ (∀ z : Fin 16, t.floor.zones[z] = ⟨Vector.replicate 4 0, .inactive, none⟩) ∧
    (∀ n : Fin 8, t.fences[n] = ⟨0, 0, .off, 0⟩) ∧ t.shot = ⟨[], none, []⟩ ∧ t.setp = ⟨[], [], 0⟩ ∧ t.adoptQueue = [] ∧
    t.startup = .inReset ∧ t.port.cur = none ∧ t.port.lastOwn = false ∧ t.bus.held = none ∧ t.bus.req = none ∧ t.bus.staging = none ∧
    t.timer.frame = 0 ∧ t.timer.missed = 0 ∧ t.timer.qualify = 0 ∧ t.timer.divCount = 0 ∧ t.timer.lastPoint = none ∧
    t.timer.nextExpiry = none ∧ (∀ n : Fin 8, t.lines.onAir[n] = false) ∧ t.lines.stop = false ∧ t.stat.flags = 0 ∧
    t.stat.mask = 0xFFF ∧ t.irq = false ∧ t.stat.capture.cls = .empty ∧ t.stat.probe = 0 ∧ t.port.timeout = 16 ∧ t.timer.mode = .internal ∧
    t.timer.tint = 2000 ∧ t.timer.divider = 1 ∧ t.timer.falling = false ∧ t.stat.interval = 10 ∧ t.lines.polarity = 0 ∧
    t.lines.edges = 0 ∧ t.floor.ox = 0 ∧ t.floor.oy = 0 ∧ t.floor.shift = 12 ∧ (∀ i : StatusItem, itemDue i t.stat = true) ∧
    t.stat.rest = [] ∧ t.stat.item = none ∧ (∀ c : Cam, t.stat.seq[c] = 0) ∧ t.stat.count = 0 ∧ t.pins = s.pins ∧ t.pending = s.pending ∧
    (∀ (a : Access) (w : MWord), MemoryForm s → s.port.cur = some a → a.write = some w → landed = true → MemoryPut s a.addr w t) ∧
    ((s.port.cur = none ∨ (∃ a, s.port.cur = some a ∧ a.write = none) ∨ landed = false) → SameMemory s t)

/-- The release of RESETn samples the straps and starts the load: where nothing else asks for the port, the load's first read, of the
first word of the region, is granted (R150, R164). With RESETn not asserted there is no release, and the state stands (log 4). -/
def Obligations.ResetReleaseStartsTheLoad : Prop :=
  ∀ (straps : BitVec 2) (s : State),
    (s.startup = .inReset →
      ∃ t, exec (.resetRelease straps) s = .next t ∧ Settled { s with base := straps, startup := .reading 0 } t ∧ SameMemory s t ∧
        (s.port.cur = none → s.bus.req = none → s.setp.writeOuts = [] → s.setp.fills = [] → s.shot = ⟨[], none, []⟩ →
          t.port.cur = some ⟨.startupRead 0, addrOf straps 0, none, none, true⟩)) ∧
    (s.startup ≠ .inReset → exec (.resetRelease straps) s = .next s)

/-- A setting word read with good parity is taken by its owner, brought into its range; one of bad parity is replaced by its default and
captured as OWN_PARITY (R164, with the places of R172). That each half of the floor origin pairs, words 8 to 11, is taken or replaced by itself
is the model's inference (log 17). -/
def Obligations.LoadTakesTheSettings : Prop :=
  ∀ (n : Nat) (a : Addr) (answer : Option MWord) (w : MWord) (d : BitVec 16) (s u : State), n < 13 →
    s.port.cur = some ⟨.startupRead n, a, none, none, true⟩ → answer.getD (s.read a) = w →
    (wordOk w = true → d = w.data ∧ u = s) →
    (wordOk w = false →
      d = (if n = 0 then 16 else if n = 2 then 2000 else if n = 3 then 1 else if n = 5 then 10 else if n = 12 then 12 else 0) ∧
      u = withError .ownParity true a w s) →
    ∃ t, exec (.startupReadEnd answer) s = .next t ∧ SameMemory s t ∧
      Settled
        { u with
          startup := .reading (n + 1)
          port := { u.port with timeout := if n = 0 then clampNat 1 255 d.toNat else s.port.timeout }
          timer :=
            { s.timer with
              mode := if n = 1 then (if d.getLsbD 0 then .house else .internal) else s.timer.mode
              tint := if n = 2 then clampNat 500 20000 d.toNat else s.timer.tint
              divider := if n = 3 then clampNat 1 16 d.toNat else s.timer.divider
              falling := if n = 4 then d.getLsbD 0 else s.timer.falling }
          stat := { u.stat with interval := if n = 5 then clampNat 1 255 d.toNat else s.stat.interval }
          lines :=
            { s.lines with
              polarity := if n = 6 then d.extractLsb' 0 8 else s.lines.polarity
              edges := if n = 7 then d else s.lines.edges }
          floor :=
            { s.floor with
              ox := if n = 8 then s.floor.ox.extractLsb' 16 16 ++ d
                else if n = 9 then d ++ s.floor.ox.extractLsb' 0 16 else s.floor.ox
              oy := if n = 10 then s.floor.oy.extractLsb' 16 16 ++ d
                else if n = 11 then d ++ s.floor.oy.extractLsb' 0 16 else s.floor.oy
              shift := if n = 12 then clampNat 0 24 d.toNat else s.floor.shift } }
        t

/-- The five words of a fence entry are taken together after the fifth when all had good parity, and leave the entry as it was otherwise. A bound
word of a zone entry read with good parity is taken as a host write of it would be; after the fifth word an entry with bit 0 of ENABLE clear, or
with a bad word, is not applied, and one with five good words and the bit set is applied, no cell being HELD. A word of bad parity, in any of the
five places, is captured as OWN_PARITY (R153, R115, R114). -/
def Obligations.LoadTakesTheEntries : Prop :=
  (∀ (f : Fin 8) (k : Fin 4) (a : Addr) (answer : Option MWord) (w : MWord) (s u : State), answer.getD (s.read a) = w →
     u = (if wordOk w then s else withError .ownParity true a w s) →
     s.port.cur = some ⟨.startupRead (13 + 5 * f.val + k.val), a, none, none, true⟩ →
     ∃ t, exec (.startupReadEnd answer) s = .next t ∧ SameMemory s t ∧
       Settled { u with startup := .reading (13 + 5 * f.val + k.val + 1), loadEntry := s.loadEntry ++ [w] } t) ∧
  (∀ (f : Fin 8) (a : Addr) (answer : Option MWord) (b0 b1 m0 m1 md : MWord) (s : State),
     s.port.cur = some ⟨.startupRead (13 + 5 * f.val + 4), a, none, none, true⟩ → s.loadEntry = [b0, b1, m0, m1] →
     answer.getD (s.read a) = md →
     ∃ t, exec (.startupReadEnd answer) s = .next t ∧ SameMemory s t ∧
       (wordOk md = false →
         Settled (withError .ownParity true a md { s with startup := .reading (13 + 5 * f.val + 5), loadEntry := [] }) t) ∧
       (wordOk md = true → wordOk b0 = true ∧ wordOk b1 = true ∧ wordOk m0 = true ∧ wordOk m1 = true →
         Settled
           { s with
             startup := .reading (13 + 5 * f.val + 5), loadEntry := []
             fences := s.fences.set f
               { base := b1.data.extractLsb' 0 8 ++ b0.data, mask := m1.data.extractLsb' 0 8 ++ m0.data
                 mode := if md.data.extractLsb' 0 2 = 0 then .off
                   else if md.data.extractLsb' 0 2 = 1 then .writeGuard else .fullGuard
                 hits := s.fences[f].hits } }
           t) ∧
       (wordOk md = true → wordOk b0 = false ∨ wordOk b1 = false ∨ wordOk m0 = false ∨ wordOk m1 = false →
         Settled { s with startup := .reading (13 + 5 * f.val + 5), loadEntry := [] } t)) ∧
  (∀ (z : Fin 16) (a : Addr) (answer : Option MWord) (w : MWord) (s : State), answer.getD (s.read a) = w →
     (∀ k : Fin 4, s.port.cur = some ⟨.startupRead (53 + 5 * z.val + k.val), a, none, none, true⟩ →
       ∃ t, exec (.startupReadEnd answer) s = .next t ∧ SameMemory s t ∧
         (wordOk w = false →
           Settled
             (withError .ownParity true a w { s with startup := .reading (53 + 5 * z.val + k.val + 1), loadEntry := s.loadEntry ++ [w] })
             t) ∧
         (wordOk w = true →
           Settled
             { s with
               startup := .reading (53 + 5 * z.val + k.val + 1), loadEntry := s.loadEntry ++ [w]
               floor :=
                 { s.floor with
                   zones := s.floor.zones.set z
                     { s.floor.zones[z] with bounds := s.floor.zones[z].bounds.set k (clampInt 0 31 w.data.toInt).toNat } } }
             t)) ∧
     (∀ x0 y0 x1 y1 : MWord, s.port.cur = some ⟨.startupRead (53 + 5 * z.val + 4), a, none, none, true⟩ →
       s.loadEntry = [x0, y0, x1, y1] → s.floor.zones[z].status = .inactive →
       ∃ t, exec (.startupReadEnd answer) s = .next t ∧ SameMemory s t ∧
         (wordOk w = false →
           Settled
             (withError .ownParity true a w
               { s with startup := if z.val = 15 then .writing 0 else .reading (53 + 5 * z.val + 5), loadEntry := [] }) t) ∧
         (wordOk w = true → wordOk x0 = false ∨ wordOk y0 = false ∨ wordOk x1 = false ∨ wordOk y1 = false ∨ w.data.getLsbD 0 = false →
           Settled { s with startup := if z.val = 15 then .writing 0 else .reading (53 + 5 * z.val + 5), loadEntry := [] } t) ∧
         (wordOk w = true → wordOk x0 = true ∧ wordOk y0 = true ∧ wordOk x1 = true ∧ wordOk y1 = true → w.data.getLsbD 0 = true →
           (∀ x y : Fin 32, isHeld (gridAt s.floor.cells x y) = false) →
           Settled
             { s with
               startup := if z.val = 15 then .writing 0 else .reading (53 + 5 * z.val + 5), loadEntry := []
               floor :=
                 { s.floor with
                   zones := s.floor.zones.set z
                     { s.floor.zones[z] with status := .active, applied := some (zoneRect s.floor.zones[z]) }
                   cells := gridOf fun x y =>
                     if inRect (zoneRect s.floor.zones[z]) x y = true ∧ gridAt s.floor.cells x y = .free then .blocked
                     else gridAt s.floor.cells x y } }
             t)))

/-- A write of the load's second phase puts its word in memory, and the load goes on to the next, where that one does not belong to a group
given up after a timeout (R170; log 16). With the last the load ends: the Frame Timer starts and the lines are sampled, and in HOUSE mode the
change of the sync state from FREE to SEEKING makes the sync group due (R164, R120, R143, R168). -/
def Obligations.LoadWritesAndEnds : Prop :=
  ∀ (n : Nat) (a : Addr) (w : MWord) (s : State), MemoryForm s → s.port.cur = some ⟨.startupWrite n, a, some w, none, true⟩ →
    (n + 1 < 1617 → s.startup ≠ .running → (∀ i : StatusItem, loadItem (n + 1) = some (i, false) → itemDue i s.stat = false) →
      ∃ t, exec .startupWriteEnd s = .next t ∧ MemoryPut s a w t ∧ Settled { s with startup := .writing (n + 1) } t) ∧
    (n = 1616 → s.bus.queue = [] →
      ∃ t, exec .startupWriteEnd s = .next t ∧ MemoryPut s a w t ∧
        (s.timer.mode = .house → s.timer.sync = .free → t.stat.syncDue = true) ∧
        Settled
          { s with
            startup := .running
            timer :=
              { s.timer with
                sync := if s.timer.mode = .house then .seeking else .free
                nextExpiry := some s.timer.tint, lastTick := 0 }
            lines :=
              { s.lines with
                onAir := Vector.ofFn fun l => s.pins.tally[l] != s.lines.polarity.getLsbD l.val
                stop := s.pins.stopLow } }
          t)

/-! The host path -/

/-- An outside access that is a hit on at least one fence entry is refused: each entry it hits counts the hit up to 255, FENCE_HIT is set,
memory stands, and a refused read returns 0x0000 with good parity. One that hits no entry is forwarded as it is (R154, R155, R151). -/
def Obligations.FencesJudgeOutsideAccesses : Prop :=
  ∀ (s : State) (a : Addr) (w : Option MWord), HostReady s → Outside s a → w.all wordOk = true →
    ∃ t, exec (hostCommand a w) s = .next t ∧ SameMemory s t ∧
      ((∃ n : Fin 8, HitBy s.fences[n] a w.isSome) →
        Settled (refused a w.isSome (w.getD ⟨0, 3⟩) { s with fences := t.fences }) t ∧
        ∀ n : Fin 8,
          (HitBy s.fences[n] a w.isSome → t.fences[n] = { s.fences[n] with hits := Nat.min 255 (s.fences[n].hits + 1) }) ∧
          (¬HitBy s.fences[n] a w.isSome → t.fences[n] = s.fences[n])) ∧
      ((∀ n : Fin 8, ¬HitBy s.fences[n] a w.isSome) → Settled s t ∧ Forwarded a w none .nothing t)

/-- A read of any region word, and a write of a region word of class PASS with no owner, is forwarded as it is; the part takes nothing but
the parity fault of a bad word. A host write word of bad parity sets PARITY_FAULT and is taken into the capture record as PASS_PARITY, host
side, by the rule of R167, whatever the class of its write (R151, R152, R159). -/
def Obligations.PassedAccessesAndBadWords : Prop :=
  (∀ (s : State) (off : Offset), HostReady s →
    (∃ t, exec (.hostRead (addrOf s.base off)) s = .next t ∧ SameMemory s t ∧ Settled s t ∧
      Forwarded (addrOf s.base off) none none .nothing t) ∧
    ∀ w : MWord, PassWord off.toNat →
      ∃ t, exec (.hostWrite (addrOf s.base off) w) s = .next t ∧ SameMemory s t ∧ Settled (tested (addrOf s.base off) w s) t ∧
        Forwarded (addrOf s.base off) (some w) none .nothing t) ∧
  ∀ (s : State) (a : Addr) (w : MWord), s.startup = .running → hostBusy s = false → s.bus.queue = [] → wordOk w = false →
    ∃ t, exec (.hostWrite a w) s = .next t ∧ t.stat.flags &&& flagParityFault = flagParityFault ∧
      t.stat.capture = captured .passParity false a w s.stat.capture

/-- When memory answers, a host access ends with HRDY: a read brings memory's word, tested for parity, and a written word is in memory; the
first word of a pair is followed by the second under the same grant. With no host access at the port the command is no event of this machine,
and the state stands (log 4). A host access that times out ends with HBERRn, a read returning 0xFFFF with good parity, a pair at its high half;
the timeout is captured as MEM_TIMEOUT, host side, and flagged, and the owner of the written word takes nothing; memory may have completed the
write (R151, R157, R159, R162, R66, R114, R153; log 6). -/
def Obligations.HostAccessEnds : Prop :=
  (∀ (s : State) (a : Addr) (answer : Option MWord),
    (∀ w : MWord, LastHost s → s.port.cur = some ⟨.host .nothing false, a, none, none, true⟩ → answer.getD (s.read a) = w →
      ∃ t, exec (.hostAccessEnd answer) s = .next t ∧ SameMemory s t ∧ Settled (hostEnds a false false w (tested a w s)) t) ∧
    (∀ w : MWord, MemoryForm s → LastHost s → s.port.cur = some ⟨.host .nothing false, a, some w, none, true⟩ →
      ∃ t, exec (.hostAccessEnd answer) s = .next t ∧ MemoryPut s a w t ∧ Settled (hostEnds a true false w s) t) ∧
    (∀ (w h : MWord) (e : OnEnd), MemoryForm s → LastHost s → s.port.cur = some ⟨.host e false, a, some w, some h, true⟩ →
      ∃ t, exec (.hostAccessEnd answer) s = .next t ∧ MemoryPut s a w t ∧ Settled s t ∧
        t.port.cur = some ⟨.host e false, a + 1, some h, none, true⟩) ∧
    (s.port.cur = none → exec (.hostAccessEnd answer) s = .next s)) ∧
  ∀ (s : State) (a : Addr) (w second : Option MWord) (e : OnEnd) (landed : Bool), MemoryForm s → LastHost s →
    s.port.cur = some ⟨.host e false, a, w, second, true⟩ →
    ∃ t, exec (.memoryTimeout landed) s = .next t ∧
      Settled
        (hostEnds (if second.isSome then a + 1 else a) w.isSome true ((second <|> w).getD ⟨0xFFFF, 3⟩)
          (withError .memTimeout false a (w.getD ⟨0, 3⟩) s)) t ∧
      Landed s a w landed t

/-- An own access that times out is captured as MEM_TIMEOUT, own side, and flagged. A write-out is abandoned with its active bank unchanged, a
fill's write is not repeated, a capture ends MEM_TIMEOUT, a read of the load ends its first phase, a fetch's cue ends MEM_TIMEOUT and the camera
takes its next head, a read its operation has given up ends nothing, and an adoption ends MEM_TIMEOUT, or READ_PARITY after a fault. The item of a
status write or of a load's write is due again, and in the load the rest of its group is passed over (R163, R135, R140, R95, R90, R91, R44, R46,
R164, R168, R170; logs 16 and 37 for the load's next write). -/
def Obligations.OwnAccessTimesOut : Prop :=
  ∀ (s e : State) (a : Addr) (w second : Option MWord) (landed : Bool), MemoryForm s → HostWaits s →
    e = withError .memTimeout true a (w.getD ⟨0, 3⟩) s →
    (∀ (c : Cam) (bank : Bank) (ctl : Bool), s.port.cur = some ⟨.writeOut c bank ctl, a, w, second, true⟩ →
      ∃ t, exec (.memoryTimeout landed) s = .next t ∧ Landed s a w landed t ∧
        Settled { e with setp := { s.setp with writeOuts := s.setp.writeOuts.filter (·.cam != c) } } t) ∧
    (∀ c : Cam, s.port.cur = some ⟨.fill c, a, w, second, true⟩ →
      ∃ t, exec (.memoryTimeout landed) s = .next t ∧ Landed s a w landed t ∧ Settled e t) ∧
    (∀ op : ShotOp, s.port.cur = some ⟨.capture, a, w, second, true⟩ → s.shot = ⟨[], some op, []⟩ → op.req.work ≠ .fetch →
      ∃ t, exec (.memoryTimeout landed) s = .next t ∧ Landed s a w landed t ∧
        Settled
          (withCam op.req.cam (withResult op.req.tag 8 .memTimeout 0 (s.cam op.req.cam))
            { e with
              shot := ⟨[], none, []⟩
              stat := { e.stat with flags := s.stat.flags ||| flagMemTimeout ||| flagCueResult ||| flagCueRefused } }) t) ∧
    (∀ n : Nat, s.port.cur = some ⟨.startupRead n, a, w, second, true⟩ →
      ∃ t, exec (.memoryTimeout landed) s = .next t ∧ Landed s a w landed t ∧
        Settled { e with startup := .writing 0, loadEntry := [] } t) ∧
    (∀ (op : ShotOp) (c : Cam) (q : Cue), s.port.cur = some ⟨.fetch, a, w, second, true⟩ → s.shot = ⟨[], some op, []⟩ →
      op.req.work = .fetch → op.req.cam = c → (s.cam c).state = .fetching → (s.cam c).active = some q → GotoNext (s.cam c) →
      ∃ t, exec (.memoryTimeout landed) s = .next t ∧ Landed s a w landed t ∧
        Settled
          (withCam c (headTaken (cueEnded q .memTimeout 0 (s.cam c)))
            { e with
              shot := headAsked c (s.cam c) ⟨[], none, []⟩
              stat := { e.stat with flags := s.stat.flags ||| flagMemTimeout ||| flagCueResult ||| flagCueRefused } }) t) ∧
    (∀ o : Owner, s.port.cur = some ⟨o, a, w, second, false⟩ → o = .fetch ∨ o = .capture ∨ (∃ c, o = .adoption c) →
      ∃ t, exec (.memoryTimeout landed) s = .next t ∧ Landed s a w landed t ∧ Settled e t) ∧
    (∀ (c : Cam) (ad : Adoption), s.port.cur = some ⟨.adoption c, a, w, second, true⟩ → (s.cam c).adoption = some ad →
      ∃ t, exec (.memoryTimeout landed) s = .next t ∧ Landed s a w landed t ∧
        Settled
          (withCam c
            (withResult ad.tag 11 (if ad.fault then .readParity else .memTimeout) 0
              { s.cam c with state := .offline, adoption := none, queue := [], cfg := emptyConfig })
            { e with
              adoptQueue := s.adoptQueue.filter (· != c)
              stat := { e.stat with flags := s.stat.flags ||| flagMemTimeout ||| flagCueResult ||| flagCueRefused } }) t) ∧
    (∀ i : StatusItem, s.port.cur = some ⟨.status i, a, w, second, true⟩ →
      ∃ t, exec (.memoryTimeout landed) s = .next t ∧ Landed s a w landed t ∧ Settled e t ∧
        (itemDue i t.stat = true ∨ TakenUp i t) ∧ (s.startup ≠ .running → t.stat.rest = [] ∧ t.stat.item = none)) ∧
    (∀ (c : Cam) (k : Nat), k < 64 → s.port.cur = some ⟨.startupWrite (65 + 64 * c.val + k), a, w, second, true⟩ → s.startup ≠ .running →
      ∃ t, exec (.memoryTimeout landed) s = .next t ∧ Landed s a w landed t ∧
        Settled { e with startup := .writing (65 + 64 * (c.val + 1)) } t ∧ t.stat.recordDue[c] = true) ∧
    (∀ n : Nat, n = 64 ∨ 576 < n → n < 1616 → s.port.cur = some ⟨.startupWrite n, a, w, second, true⟩ → s.startup ≠ .running →
      ∃ t, exec (.memoryTimeout landed) s = .next t ∧ Landed s a w landed t ∧ Settled { e with startup := .writing (n + 1) } t ∧
        ∀ i : StatusItem, loadItem n = some (i, true) → itemDue i t.stat = true)

/-- Host writes to the words that refuse them leave memory as it was, end with a bus error and set FENCE_HIT. Words 0 to 32 of a setpoint
frame, and the FLOOR_X and FLOOR_Y slots of a ROAMING camera in DIRECT, also count in the camera's blocked-write count, up to 255 (R151,
R152, R137, R139). -/
def Obligations.RefusedWritesEndWithABusError : Prop :=
  ∀ (s : State) (w : MWord), HostReady s → wordOk w = true →
    (∀ off : Offset, RefusedWord off.toNat →
      ∃ t, exec (.regionWriteRefused off w) s = .next t ∧ SameMemory s t ∧ Settled (refused (addrOf s.base off) true w s) t) ∧
    (∀ (c : Cam) (k : Fin 33),
      ∃ t, exec (.setpointFrameWriteRefused c k w) s = .next t ∧ SameMemory s t ∧
        Settled
          (refused (addrOf s.base (frameOff c k)) true w
            (withCam c { s.cam c with blocked := Nat.min 255 ((s.cam c).blocked + 1) } s)) t) ∧
    (∀ (c : Cam) (k : Fin 4), (s.cam c).state = .direct → (s.cam c).cfg.kind = some .roaming →
      ∃ t, exec (.floorSlotWriteRefused c k w) s = .next t ∧ SameMemory s t ∧
        Settled
          (refused (addrOf s.base (frameOff c (58 + k.val))) true w
            (withCam c { s.cam c with blocked := Nat.min 255 ((s.cam c).blocked + 1) } s)) t)

/-- A host write of good parity to the mask word becomes the mask, bits 15 to 12 ignored, and reaches memory as it is; one of bad parity is
not taken. IRQn is asserted exactly while a flag is both set and unmasked, so it is released at RESETn, where the mask is 0x0FFF. A masked flag
still sets (R166). -/
def Obligations.MaskWordDrivesTheInterruptLine : Prop :=
  (∀ (s : State) (w : MWord), HostReady s →
    ∃ t, exec (.maskWordWrite w) s = .next t ∧ SameMemory s t ∧ Forwarded (addrOf s.base 0x41) (some w) none .nothing t ∧
      (wordOk w = true → Settled { s with stat := { s.stat with mask := w.data.extractLsb' 0 12 } } t) ∧
      (wordOk w = false → Settled (withError .passParity false (addrOf s.base 0x41) w s) t)) ∧
  (∀ s : State, s.irq = true ↔ ∃ i < 12, s.stat.flags.getLsbD i = true ∧ s.stat.mask.getLsbD i = false) ∧
  (∀ (s : State) (f : BitVec 12), (s.flag f).stat.flags = s.stat.flags ||| f ∧ (s.flag f).stat.mask = s.stat.mask) ∧
  State.reset.stat.mask = 0xFFF ∧ State.reset.irq = false

/-- A host write of good parity to the flags word clears the flags it names, and memory gets the flags as they then stand; one to the capture
clear word empties the capture record, one to the missed-frame counter word or to a hit counter word clears the counter, and memory gets 0 with
good parity. With bad parity nothing is cleared, and memory gets what stands, poisoned (R165, R160, R167, R129, R155). That a bad word is
handed on before the poisoned word is formed, so that the flags and the class forwarded show it, is the model's choice (log 21); that every
field of the emptied record is 0 is its inference (log 23). -/
def Obligations.ClearingWordsAreAltered : Prop :=
  ∀ (s : State) (w : MWord), HostReady s →
    (∃ t, exec (.flagsWordWrite w) s = .next t ∧ SameMemory s t ∧
      (wordOk w = true →
        Settled { s with stat := { s.stat with flags := s.stat.flags &&& ~~~(w.data.extractLsb' 0 12) } } t ∧
        Forwarded (addrOf s.base 0x40) (some (goodWord ((s.stat.flags &&& ~~~(w.data.extractLsb' 0 12)).setWidth 16))) none .nothing t) ∧
      (wordOk w = false →
        Settled (withError .passParity false (addrOf s.base 0x40) w s) t ∧
        Forwarded (addrOf s.base 0x40) (some (poisonWord ((s.stat.flags ||| flagParityFault).setWidth 16))) none .nothing t)) ∧
    (∃ t, exec (.captureClearWrite w) s = .next t ∧ SameMemory s t ∧
      (wordOk w = true →
        Settled { s with stat := { s.stat with capture := emptyError } } t ∧
        Forwarded (addrOf s.base 0x60) (some (goodWord 0)) none .nothing t) ∧
      (wordOk w = false →
        Settled (withError .passParity false (addrOf s.base 0x60) w s) t ∧
        Forwarded (addrOf s.base 0x60)
          (some (poisonWord (errCode (captured .passParity false (addrOf s.base 0x60) w s.stat.capture).cls))) none .nothing t)) ∧
    (∃ t, exec (.missedFrameCounterWrite w) s = .next t ∧ SameMemory s t ∧
      (wordOk w = true →
        Settled { s with timer := { s.timer with missed := 0 } } t ∧
        Forwarded (addrOf s.base 0x48) (some (goodWord 0)) none .nothing t) ∧
      (wordOk w = false →
        Settled (withError .passParity false (addrOf s.base 0x48) w s) t ∧
        Forwarded (addrOf s.base 0x48) (some (poisonWord (BitVec.ofNat 16 s.timer.missed))) none .nothing t)) ∧
    (∀ n : Fin 8, ∃ t, exec (.fenceHitCounterWrite n w) s = .next t ∧ SameMemory s t ∧
      (wordOk w = true →
        Settled { s with fences := s.fences.set n { s.fences[n] with hits := 0 } } t ∧
        Forwarded (addrOf s.base (hitsOff n)) (some (goodWord 0)) none .nothing t) ∧
      (wordOk w = false →
        Settled (withError .passParity false (addrOf s.base (hitsOff n)) w s) t ∧
        Forwarded (addrOf s.base (hitsOff n)) (some (poisonWord (BitVec.ofNat 16 s.fences[n].hits))) none .nothing t))

/-- At their decode, the words of a fence's base and mask and of a zone's bounds are taken when their parity is good, a mailbox latch takes
its word with its parity mark, and a write to a config block marks a camera that is not OFFLINE as CONFIG_STALE; each write reaches memory
as it is. A fence MODE word that ends at memory is in memory, and its mode is taken when its parity is good: 0 OFF, 1 WRITE_GUARD, 2 and 3
FULL_GUARD, bits 15 to 2 ignored (R153, R113, R65, R15; log 7 for the completion). -/
def Obligations.WatchedWordsAreTaken : Prop :=
  (∀ (s : State) (w : MWord), HostReady s →
     (∀ (n : Fin 8) (k : Fin 4), ∃ t, exec (.fenceBoundWrite n k w) s = .next t ∧ SameMemory s t ∧
       Forwarded (addrOf s.base (fenceOff n k)) (some w) none .nothing t ∧
       (wordOk w = false → Settled (withError .passParity false (addrOf s.base (fenceOff n k)) w s) t) ∧
       (wordOk w = true → Settled { s with fences := t.fences } t ∧ (∀ m : Fin 8, m ≠ n → t.fences[m] = s.fences[m]) ∧
         t.fences[n].mode = s.fences[n].mode ∧ t.fences[n].hits = s.fences[n].hits ∧
         t.fences[n].base =
           (if k = 0 then s.fences[n].base.extractLsb' 16 8 ++ w.data
            else if k = 1 then w.data.extractLsb' 0 8 ++ s.fences[n].base.extractLsb' 0 16 else s.fences[n].base) ∧
         t.fences[n].mask =
           (if k = 2 then s.fences[n].mask.extractLsb' 16 8 ++ w.data
            else if k = 3 then w.data.extractLsb' 0 8 ++ s.fences[n].mask.extractLsb' 0 16 else s.fences[n].mask))) ∧
     (∀ (z : Fin 16) (k : Fin 4), ∃ t, exec (.zoneBoundWrite z k w) s = .next t ∧ SameMemory s t ∧
       Forwarded (addrOf s.base (zoneOff z k)) (some w) none .nothing t ∧
       (wordOk w = false → Settled (withError .passParity false (addrOf s.base (zoneOff z k)) w s) t) ∧
       (wordOk w = true →
         Settled
           { s with
             floor :=
               { s.floor with
                 zones := s.floor.zones.set z
                   { s.floor.zones[z] with bounds := s.floor.zones[z].bounds.set k (clampInt 0 31 w.data.toInt).toNat } } } t)) ∧
     (∀ (c : Cam) (k : Fin 4), ∃ t, exec (.mailboxLatchWrite c k w) s = .next t ∧ SameMemory s t ∧
       Forwarded (addrOf s.base (mailboxOff c (1 + k.val))) (some w) none .nothing t ∧
       Settled
         (withCam c { s.cam c with latches := (s.cam c).latches.set k ⟨w.data, wordOk w⟩ }
           (tested (addrOf s.base (mailboxOff c (1 + k.val))) w s)) t) ∧
     (∀ (c : Cam) (k : Fin 128), ∃ t, exec (.configBlockWrite c k w) s = .next t ∧ SameMemory s t ∧
       Forwarded (addrOf s.base (configOff c k)) (some w) none .nothing t ∧
       ((s.cam c).state = .offline → Settled (tested (addrOf s.base (configOff c k)) w s) t) ∧
       ((s.cam c).state ≠ .offline →
         Settled (withCam c { s.cam c with stale := true } (tested (addrOf s.base (configOff c k)) w s)) t))) ∧
  ∀ (s : State) (n : Fin 8) (w : MWord), Completing s (addrOf s.base (fenceOff n 4)) w (.fenceMode n) →
    ∃ t, exec (.fenceModeWrite n w) s = .next t ∧ MemoryPut s (addrOf s.base (fenceOff n 4)) w t ∧
      (wordOk w = true →
        Settled
          (hostEnds (addrOf s.base (fenceOff n 4)) true false w
            { s with
              fences := s.fences.set n
                { s.fences[n] with
                  mode := if w.data.extractLsb' 0 2 = 0 then .off
                    else if w.data.extractLsb' 0 2 = 1 then .writeGuard else .fullGuard } }) t) ∧
      (wordOk w = false → t.fences = s.fences)

/-- The low half of a staged pair is held: its access ends with HRDY at once, and memory keeps its word (R157). The staged pairs are the probe's and
those of the present axes of an enabled camera, but for the floor axes of a ROAMING camera in DIRECT (R138, R139). A held low half whose high half
does not come next is interrupted: it is forwarded unaltered, it counts in its camera's blocked-write count when it is a slot's, and the
interrupting access waits; when the forwarded half is in memory, that access is classed, here a read of a region word (R158). -/
def Obligations.LowHalvesAreHeldOrInterrupted : Prop :=
  (∀ (s : State) (w : MWord), HostReady s →
    (∃ t, exec (.probeLowHalfWrite w) s = .next t ∧ SameMemory s t ∧
      Settled
        (hostEnds (addrOf s.base 0xC0) true false w
          { tested (addrOf s.base 0xC0) w s with
            bus := { s.bus with staging := some ⟨.probe, addrOf s.base 0xC0, w⟩ } }) t) ∧
    (∀ (c : Cam) (a : Axis), enabledState (s.cam c).state = true → inMask (s.cam c).cfg.mask a = true →
      ¬((s.cam c).state = .direct ∧ (s.cam c).cfg.kind = some .roaming ∧ (a = floorX ∨ a = floorY)) →
      ∃ t, exec (.directSlotLowHalfWrite c a w) s = .next t ∧ SameMemory s t ∧
        Settled
          (hostEnds (addrOf s.base (frameOff c (48 + 2 * a.val))) true false w
            { tested (addrOf s.base (frameOff c (48 + 2 * a.val))) w s with
              bus := { s.bus with staging := some ⟨.slot c a, addrOf s.base (frameOff c (48 + 2 * a.val)), w⟩ } }) t)) ∧
  ∀ (s : State) (p : StagedPair) (b a : Addr) (lo : MWord) (w : Option MWord), s.startup = .running → hostBusy s = false →
    s.bus.queue = [] → s.bus.staging = some ⟨p, b, lo⟩ → (w = none ∨ a ≠ b + 1) → w.all wordOk = true →
    (∃ t, exec (hostCommand a w) s = .next t ∧ SameMemory s t ∧
      t.bus.held = some ⟨a, w⟩ ∧ t.bus.staging = none ∧
      (t.bus.req = some ⟨.host .nothing true, b, some lo, none, true⟩ ∨
        t.port.cur = some ⟨.host .nothing true, b, some lo, none, true⟩) ∧
      (p = .probe → Settled { s with bus := { s.bus with staging := none, held := some ⟨a, w⟩ } } t) ∧
      (∀ (c : Cam) (x : Axis), p = .slot c x →
        Settled
          (withCam c { s.cam c with blocked := Nat.min 255 ((s.cam c).blocked + 1) }
            { s with bus := { s.bus with staging := none, held := some ⟨a, w⟩ } }) t)) ∧
    ∀ (u : State) (off : Offset) (answer : Option MWord), MemoryForm u → u.bus.queue = [] → u.bus.req = none →
      u.bus.held = some ⟨addrOf u.base off, none⟩ → u.port.cur = some ⟨.host .nothing true, b, some lo, none, true⟩ →
      ∃ t, exec (.hostAccessEnd answer) u = .next t ∧ MemoryPut u b lo t ∧ Settled { u with bus := { u.bus with held := none } } t ∧
        Forwarded (addrOf u.base off) none none .nothing t

/-- The probe pair, taken with good parity in both halves, forms the probe result: the fence entries that match the address in bits 7 to 0,
whatever their modes, the area code in bits 11 to 8, 0 above; and the pair goes to memory unchanged under one grant. With bad parity in
either half no result is formed and the pair is poisoned. A high half alone is forwarded as it is (R156, R157, R160). -/
def Obligations.ProbePairFormsTheResult : Prop :=
  ∀ (s : State) (lo hi : MWord), s.startup = .running → hostBusy s = false → s.bus.queue = [] →
    (s.bus.staging = some ⟨.probe, addrOf s.base 0xC0, lo⟩ →
      ∃ t, exec (.probeHighHalfWrite hi) s = .next t ∧ SameMemory s t ∧
        (wordOk lo = true → wordOk hi = true →
          Settled { s with bus := { s.bus with staging := none }, stat := { s.stat with probe := t.stat.probe } } t ∧
          (∀ n : Fin 8, t.stat.probe.getLsbD n.val = true ↔ Matches s.fences[n] (hi.data.extractLsb' 0 8 ++ lo.data)) ∧
          (∀ off : Offset, hi.data.extractLsb' 0 8 ++ lo.data = addrOf s.base off →
            t.stat.probe.extractLsb' 8 8 = BitVec.ofNat 8 (areaCode off.toNat)) ∧
          (Outside s (hi.data.extractLsb' 0 8 ++ lo.data) → t.stat.probe.extractLsb' 8 8 = 0) ∧
          Forwarded (addrOf s.base 0xC0) (some (goodWord lo.data)) (some (goodWord hi.data)) .nothing t) ∧
        (wordOk lo = false ∨ wordOk hi = false →
          Settled { tested (addrOf s.base 0xC1) hi s with bus := { s.bus with staging := none } } t ∧
          Forwarded (addrOf s.base 0xC0) (some (poisonWord lo.data)) (some (poisonWord hi.data)) .nothing t)) ∧
    (s.bus.staging = none →
      ∃ t, exec (.probeHighHalfWrite hi) s = .next t ∧ SameMemory s t ∧ Settled (tested (addrOf s.base 0xC1) hi s) t ∧
        Forwarded (addrOf s.base 0xC1) (some hi) none .nothing t)

/-- A direct slot pair of a present axis, taken with good parity in both halves, goes to memory clamped to the soft limits under one grant,
and in DIRECT becomes the axis's direct target; with bad parity in either half it is poisoned and steers nothing. In OFFLINE and ADOPTING, and
for an absent axis, the pair passes unaltered. A high half with no low half held passes unaltered and counts in the blocked-write count (R138,
R157, R159, R160). -/
def Obligations.SlotPairIsClamped : Prop :=
  ∀ (s u : State) (c : Cam) (a : Axis) (lo hi : MWord) (v : Int), s.startup = .running → hostBusy s = false → s.bus.queue = [] →
    ¬((s.cam c).state = .direct ∧ (s.cam c).cfg.kind = some .roaming ∧ (a = floorX ∨ a = floorY)) →
    v = clampInt (s.cam c).cfg.axes[a].min (s.cam c).cfg.axes[a].max (hi.data ++ lo.data : BitVec 32).toInt →
    u = tested (addrOf s.base (frameOff c (49 + 2 * a.val))) hi s →
    (s.bus.staging = some ⟨.slot c a, addrOf s.base (frameOff c (48 + 2 * a.val)), lo⟩ →
      ∃ t, exec (.directSlotHighHalfWrite c a hi) s = .next t ∧ SameMemory s t ∧
        (enabledState (s.cam c).state = true → inMask (s.cam c).cfg.mask a = true → wordOk lo = true → wordOk hi = true →
          Settled
            (withCam c
              { s.cam c with
                direct := if (s.cam c).state = .direct then (s.cam c).direct.map fun d => d.set a v else (s.cam c).direct }
              { s with bus := { s.bus with staging := none } }) t ∧
          Forwarded (addrOf s.base (frameOff c (48 + 2 * a.val))) (some (goodWord (lowHalf v))) (some (goodWord (highHalf v)))
            .nothing t) ∧
        (enabledState (s.cam c).state = true → inMask (s.cam c).cfg.mask a = true → wordOk lo = false ∨ wordOk hi = false →
          Settled { u with bus := { s.bus with staging := none } } t ∧
          Forwarded (addrOf s.base (frameOff c (48 + 2 * a.val))) (some (poisonWord (lowHalf v))) (some (poisonWord (highHalf v)))
            .nothing t) ∧
        (enabledState (s.cam c).state = false ∨ inMask (s.cam c).cfg.mask a = false →
          Settled { u with bus := { s.bus with staging := none } } t ∧
          Forwarded (addrOf s.base (frameOff c (48 + 2 * a.val))) (some lo) (some hi) .nothing t)) ∧
    (s.bus.staging = none →
      ∃ t, exec (.directSlotHighHalfWrite c a hi) s = .next t ∧ SameMemory s t ∧
        Forwarded (addrOf s.base (frameOff c (49 + 2 * a.val))) (some hi) none .nothing t ∧
        (enabledState (s.cam c).state = true → inMask (s.cam c).cfg.mask a = true →
          Settled (withCam c { s.cam c with blocked := Nat.min 255 ((s.cam c).blocked + 1) } u) t) ∧
        (enabledState (s.cam c).state = false ∨ inMask (s.cam c).cfg.mask a = false → Settled u t))

/-- A host write to the shot store passes as it is. On the record of a capture in flight it sets the overlap mark; on the record of a fetch
in flight it gives up the attempt, the next beginning at word 0; on any other record it changes nothing (R91, R95). -/
def Obligations.ShotStoreWriteOverlaps : Prop :=
  ∀ (s : State) (k : BitVec 14) (w : MWord), HostReady s → ShotQuiet s.shot →
    ∃ t, exec (.shotStoreWrite k w) s = .next t ∧ SameMemory s t ∧ Forwarded (addrOf s.base (1#2 ++ k)) (some w) none .nothing t ∧
      ((s.shot.op = none ∨ ∃ op, s.shot.op = some op ∧ op.req.shot < 64 ∧ k.toNat / 32 ≠ 64 * op.req.cam.val + op.req.shot) →
        Settled (tested (addrOf s.base (1#2 ++ k)) w s) t) ∧
      (∀ op : ShotOp, s.shot.op = some op → op.req.shot < 64 → k.toNat / 32 = 64 * op.req.cam.val + op.req.shot →
        (op.req.work ≠ .fetch →
          Settled { tested (addrOf s.base (1#2 ++ k)) w s with shot := { s.shot with op := some { op with overlap := true } } } t) ∧
        (op.req.work = .fetch → op.attempt < 4 →
          Settled
            { tested (addrOf s.base (1#2 ++ k)) w s with
              shot := { s.shot with op := some { op with words := [], attempt := op.attempt + 1 } } } t) ∧
        (∀ q : Cue, op.req.work = .fetch → op.attempt = 4 → wordOk w = true → (s.cam op.req.cam).state = .fetching →
          (s.cam op.req.cam).active = some q → (s.cam op.req.cam).queue = [] →
          t.cam op.req.cam = cueEnded q .shotUnstable 0 (s.cam op.req.cam)))

/-! Floor geometry and zones -/

/-- The cell of a count is floor((count - origin) / 2^s), brought into 0..31. The parked rectangle at a place runs from the cell of the place less
the margin to the cell of the place plus it; the claim rectangle of a move from the cell of the lesser end less the margin to that of the greater
end plus it, and it contains the parked rectangle at every place between. A zone's rectangle runs between the lesser and the greater of its bounds
in each direction, and a cell lies in a rectangle when its coordinates lie within the bounds (R100, R102, R114). -/
def Obligations.FloorRectanglesAreFormed : Prop :=
  (∀ (o : BitVec 32) (n : Nat) (v q : Int), q * 2 ^ n ≤ v - o.toInt → v - o.toInt < (q + 1) * 2 ^ n → Clamped 0 31 q (cellOf o n v)) ∧
  (∀ (f : FloorMap) (m x y : Int), parkedRect f m x y =
    ⟨cellOf f.ox f.shift (x - m), cellOf f.oy f.shift (y - m), cellOf f.ox f.shift (x + m), cellOf f.oy f.shift (y + m)⟩) ∧
  (∀ (f : FloorMap) (m x0 x1 y0 y1 : Int) (o p : Positions), Between o[floorX] p[floorX] x0 x1 → Between o[floorY] p[floorY] y0 y1 →
    claimRect f m o p =
      ⟨cellOf f.ox f.shift (x0 - m), cellOf f.oy f.shift (y0 - m), cellOf f.ox f.shift (x1 + m), cellOf f.oy f.shift (y1 + m)⟩ ∧
    ∀ (u v : Int) (x y : Fin 32), x0 ≤ u → u ≤ x1 → y0 ≤ v → v ≤ y1 → inRect (parkedRect f m u v) x y = true →
      inRect (claimRect f m o p) x y = true) ∧
  (∀ (e : Zone) (x y : Fin 32), inRect (zoneRect e) x y = true ↔
    (e.bounds[0] ≤ x.val ∨ e.bounds[2] ≤ x.val) ∧ (x.val ≤ e.bounds[0] ∨ x.val ≤ e.bounds[2]) ∧
    (e.bounds[1] ≤ y.val ∨ e.bounds[3] ≤ y.val) ∧ (y.val ≤ e.bounds[1] ∨ y.val ≤ e.bounds[3])) ∧
  ∀ (r : Rect) (x y : Fin 32), inRect r x y = true ↔ r.x0 ≤ x.val ∧ x.val ≤ r.x1 ∧ r.y0 ≤ y.val ∧ y.val ≤ r.y1

/-- A good write of ENABLE with bit 0 set applies an entry that is not ACTIVE: over a HELD cell it is REFUSED_HELD with ZONE_REFUSED and no
cell changes; otherwise the FREE cells of the rectangle of the latched bounds become BLOCKED and the entry is ACTIVE with that rectangle. An
ACTIVE entry, and one whose word has bad parity, is unchanged (R114; log 7). -/
def Obligations.ZoneIsApplied : Prop :=
  ∀ (s : State) (z : Fin 16) (rest : BitVec 15) (par : BitVec 2) (a : Addr) (w : MWord), a = addrOf s.base (zoneOff z 4) →
    w = ⟨rest ++ 1#1, par⟩ → Completing s a w (.zoneEnable z) →
    ∃ t, exec (.zoneApply z rest par) s = .next t ∧ MemoryPut s a w t ∧
      (wordOk w = false → t.floor = s.floor) ∧
      (wordOk w = true → s.floor.zones[z].status = .active → Settled (hostEnds a true false w s) t) ∧
      (wordOk w = true → s.floor.zones[z].status ≠ .active →
        (∃ x y : Fin 32, ∃ c : Cam, inRect (zoneRect s.floor.zones[z]) x y = true ∧ gridAt s.floor.cells x y = .held c) →
        Settled
          (hostEnds a true false w
            { s with
              floor :=
                { s.floor with
                  zones := s.floor.zones.set z { s.floor.zones[z] with status := .refusedHeld, applied := none } }
              stat := { s.stat with flags := s.stat.flags ||| flagZoneRefused } }) t) ∧
      (wordOk w = true → s.floor.zones[z].status ≠ .active →
        (∀ (x y : Fin 32) (c : Cam), inRect (zoneRect s.floor.zones[z]) x y = true → gridAt s.floor.cells x y ≠ .held c) →
        Settled
          (hostEnds a true false w
            { s with
              floor :=
                { s.floor with
                  zones := s.floor.zones.set z
                    { s.floor.zones[z] with status := .active, applied := some (zoneRect s.floor.zones[z]) }
                  cells := gridOf fun x y =>
                    if inRect (zoneRect s.floor.zones[z]) x y = true ∧ gridAt s.floor.cells x y = .free then .blocked
                    else gridAt s.floor.cells x y } }) t)

/-- A good write of ENABLE with bit 0 clear removes an entry: the cells of an ACTIVE entry that lie in the applied rectangle of no other
ACTIVE entry become FREE, and the entry is INACTIVE; a REFUSED_HELD entry becomes INACTIVE with no cell changed; an INACTIVE entry, and one
whose word has bad parity, is unchanged. Here no camera waits for floor, so that the release examination tries none (R116; log 7). -/
def Obligations.ZoneIsRemoved : Prop :=
  ∀ (s : State) (z : Fin 16) (rest : BitVec 15) (par : BitVec 2) (a : Addr) (w : MWord), a = addrOf s.base (zoneOff z 4) →
    w = ⟨rest ++ 0#1, par⟩ → Completing s a w (.zoneEnable z) → ZonesHold s → (∀ c : Cam, inWaitingSet (s.cam c) = false) →
    ∃ t, exec (.zoneRemove z rest par) s = .next t ∧ MemoryPut s a w t ∧
      (wordOk w = false → t.floor = s.floor) ∧
      (wordOk w = true → s.floor.zones[z].status = .inactive → Settled (hostEnds a true false w s) t) ∧
      (wordOk w = true → s.floor.zones[z].status = .refusedHeld →
        Settled
          (hostEnds a true false w
            { s with
              floor :=
                { s.floor with
                  zones := s.floor.zones.set z { s.floor.zones[z] with status := .inactive, applied := none } } }) t) ∧
      (wordOk w = true → s.floor.zones[z].status = .active →
        Settled (hostEnds a true false w { s with floor := t.floor }) t ∧
        (∀ i : Fin 16, i ≠ z → t.floor.zones[i] = s.floor.zones[i]) ∧
        t.floor.zones[z] = { s.floor.zones[z] with status := .inactive, applied := none } ∧
        ∀ x y : Fin 32,
          (s.floor.zones[z].applied.any (inRect · x y) = true ∧
            (∀ i : Fin 16, i ≠ z → s.floor.zones[i].status = .active → s.floor.zones[i].applied.any (inRect · x y) = false) →
            gridAt t.floor.cells x y = .free) ∧
          (s.floor.zones[z].applied.any (inRect · x y) = false ∨
            (∃ i : Fin 16, i ≠ z ∧ s.floor.zones[i].status = .active ∧ s.floor.zones[i].applied.any (inRect · x y) = true) →
            gridAt t.floor.cells x y = gridAt s.floor.cells x y))

/-! Cues -/

/-- A post with a faulty word among COMMAND and the four latches is refused with CUE_PARITY, whatever its kind: the result's tag and kind are those
of COMMAND as written, the detail names the faulty words, and nothing else of any camera, the floor, the Shot Engine or the adoptions changes (R68).
A cue posted in a state that does not accept its kind, by the table of R70, is refused with WRONG_STATE, the detail being the code of the state, and
nothing else of the camera changes (R70, R84). -/
def Obligations.FaultyAndWrongPostsAreRefused : Prop :=
  (∀ (s : State) (c : Cam) (tag : BitVec 8) (spare kind : BitVec 4) (par : BitVec 2) (faults : BitVec 16),
    Completing s (addrOf s.base (mailboxOff c 0)) (commandWord tag spare kind par) (.post c) → ShotQuiet s.shot →
    (∀ i < 16, faults.getLsbD i = true ↔
      (i = 0 ∧ wordOk (commandWord tag spare kind par) = false) ∨ (∃ n : Fin 4, i = n.val + 1 ∧ (s.cam c).latches[n].good = false)) →
    faults ≠ 0 →
    ∃ t, exec (postOf kind c tag spare par) s = .next t ∧
      MemoryPut s (addrOf s.base (mailboxOff c 0)) (commandWord tag spare kind par) t ∧
      t.cams = s.cams.set c (withResult tag kind .cueParity faults (s.cam c)) ∧ t.floor = s.floor ∧ t.shot = s.shot ∧
      t.adoptQueue = s.adoptQueue ∧ t.timer = s.timer ∧ t.lines = s.lines ∧ t.fences = s.fences ∧
      (flagCueResult ||| flagCueRefused) &&& ~~~t.stat.flags = 0 ∧
      (wordOk (commandWord tag spare kind par) = true →
        Settled (afterPost s c (commandWord tag spare kind par) (withResult tag kind .cueParity faults (s.cam c)) .cueParity) t)) ∧
  ∀ (s : State) (c : Cam) (tag : BitVec 8) (spare kind : BitVec 4) (par : BitVec 2), refusedIn kind (s.cam c) →
    Posting s c (commandWord tag spare kind par) →
    ∃ t, exec (postOf kind c tag spare par) s = .next t ∧
      MemoryPut s (addrOf s.base (mailboxOff c 0)) (commandWord tag spare kind par) t ∧
      Settled
        (afterPost s c (commandWord tag spare kind par)
          (withResult tag kind .wrongState (camStateCode (s.cam c).state) (s.cam c)) .wrongState) t

/-- A post whose kind code is 0, 13, 14 or 15 is refused with BAD_KIND in every camera state: the result shows the tag and the unknown code,
the detail is 0, and nothing else of the camera changes (R69). -/
def Obligations.UnknownKindIsRefused : Prop :=
  ∀ (s : State) (c : Cam) (tag : BitVec 8) (spare kind : BitVec 4) (par : BitVec 2), kind = 0 ∨ kind = 13 ∨ kind = 14 ∨ kind = 15 →
    Posting s c (commandWord tag spare kind par) →
    ∃ t, exec (.postUnknownKind c tag spare kind par) s = .next t ∧
      MemoryPut s (addrOf s.base (mailboxOff c 0)) (commandWord tag spare kind par) t ∧
      Settled (afterPost s c (commandWord tag spare kind par) (withResult tag kind .badKind 0 (s.cam c)) .badKind) t

/-- In a camera that is not OFFLINE a GOTO with ARG above 63 is refused with BAD_ARG and that ARG, and a move cue that finds 4 cues queued
with QUEUE_FULL; a RETURN does not check ARG. A move cue that passes joins the tail of the queue of a camera that is not IDLE, with no result.
One that cuts in joins the head: MOVING and HALTING take both marks and the rate target 0; in FETCHING, WAITING and HALTED the active cue ends
ABANDONED at the post, and the cue is taken, a GOTO to its fetch, a RETURN of an empty stack to STACK_EMPTY (R71, R72, R74, R75, R48, R98). -/
def Obligations.MoveCueIsJudgedAndQueued : Prop :=
  (∀ (s : State) (c : Cam) (tag : BitVec 8) (spare : BitVec 4) (par : BitVec 2), (s.cam c).state ≠ .offline →
     (Posting s c (commandWord tag spare 1 par) → 63 < (s.cam c).latches[0].value.toNat →
       ∃ t, exec (.goto c tag spare par) s = .next t ∧
         MemoryPut s (addrOf s.base (mailboxOff c 0)) (commandWord tag spare 1 par) t ∧
         Settled
           (afterPost s c (commandWord tag spare 1 par) (withResult tag 1 .badArg (s.cam c).latches[0].value (s.cam c)) .badArg) t) ∧
     (Posting s c (commandWord tag spare 1 par) → (s.cam c).latches[0].value.toNat ≤ 63 → (s.cam c).queue.length = 4 →
       ∃ t, exec (.goto c tag spare par) s = .next t ∧
         MemoryPut s (addrOf s.base (mailboxOff c 0)) (commandWord tag spare 1 par) t ∧
         Settled (afterPost s c (commandWord tag spare 1 par) (withResult tag 1 .queueFull 0 (s.cam c)) .queueFull) t) ∧
     (Posting s c (commandWord tag spare 2 par) → (s.cam c).queue.length = 4 →
       ∃ t, exec (.ret c tag spare par) s = .next t ∧
         MemoryPut s (addrOf s.base (mailboxOff c 0)) (commandWord tag spare 2 par) t ∧
         Settled (afterPost s c (commandWord tag spare 2 par) (withResult tag 2 .queueFull 0 (s.cam c)) .queueFull) t)) ∧
  ∀ (s : State) (c : Cam) (tag : BitVec 8) (spare kind : BitVec 4) (par : BitVec 2) (m : MoveKind) (w : MWord) (p : Cue),
    (kind = 1 ∧ m = .goto ∧ (s.cam c).latches[0].value.toNat ≤ 63) ∨ (kind = 2 ∧ m = .ret) →
    w = commandWord tag spare kind par → p = postedCue m tag (s.cam c) → Posting s c w → (s.cam c).state ≠ .offline →
    (s.cam c).state ≠ .idle → (s.cam c).queue.length < 4 →
    ∃ t, exec (postOf kind c tag spare par) s = .next t ∧ MemoryPut s (addrOf s.base (mailboxOff c 0)) w t ∧
      (¬CutsIn (s.cam c) → Settled (afterQuietPost s c w { s.cam c with queue := (s.cam c).queue ++ [p] }) t) ∧
      (CutsIn (s.cam c) → (s.cam c).state = .moving ∨ (s.cam c).state = .halting →
        Settled
          (afterQuietPost s c w
            { s.cam c with queue := p :: (s.cam c).queue, halt := true, abandon := true, rt := 0, state := .halting }) t) ∧
      (∀ (q : Cue) (k : Camera) (e : ShotEngine) (g : Grid Cell), CutsIn (s.cam c) → (s.cam c).active = some q → ShotQuiet s.shot →
        CueGivenUp s c q k e g →
        (m = .goto →
          Settled
            { afterPost (withCells g s) c w (headTaken { k with queue := p :: k.queue }) .abandoned with
              shot := headAsked c { k with queue := p :: k.queue } e } t) ∧
        (m = .ret → (s.cam c).stack = [] → GotoNext (s.cam c) →
          Settled
            { afterPost (withCells g s) c w (headTaken (cueEnded p .stackEmpty 0 k)) .stackEmpty with shot := headAsked c k e } t))

/-- A GOTO posted to an IDLE camera is taken at once: it is the active cue, the camera is FETCHING, and a fetch of its shot joins the Shot
Engine, which starts it when it is free. A RETURN posted to an IDLE camera with an empty return stack ends STACK_EMPTY, and the camera stays
IDLE (R48, R71, R87, R98). -/
def Obligations.MoveCueIsTaken : Prop :=
  (∀ (s : State) (c : Cam) (tag : BitVec 8) (spare : BitVec 4) (par : BitVec 2), Posting s c (commandWord tag spare 1 par) →
     (s.cam c).state = .idle → (s.cam c).queue = [] → (s.cam c).active = none → (s.cam c).latches[0].value.toNat ≤ 63 →
     ShotQuiet s.shot →
     ∃ t, exec (.goto c tag spare par) s = .next t ∧
       MemoryPut s (addrOf s.base (mailboxOff c 0)) (commandWord tag spare 1 par) t ∧
       Settled
         { afterQuietPost s c (commandWord tag spare 1 par)
             { s.cam c with state := .fetching, active := some (postedCue .goto tag (s.cam c)) } with
           shot :=
             if s.shot.op = none then
               ⟨[], some ⟨⟨c, (s.cam c).latches[0].value.toNat, tag, .fetch⟩, [], 0, 1, false⟩, []⟩
             else { s.shot with fifo := s.shot.fifo ++ [⟨c, (s.cam c).latches[0].value.toNat, tag, .fetch⟩] } } t) ∧
  ∀ (s : State) (c : Cam) (tag : BitVec 8) (spare : BitVec 4) (par : BitVec 2), Posting s c (commandWord tag spare 2 par) →
    (s.cam c).state = .idle → (s.cam c).queue = [] → (s.cam c).active = none → (s.cam c).stack = [] →
    ∃ t, exec (.ret c tag spare par) s = .next t ∧
      MemoryPut s (addrOf s.base (mailboxOff c 0)) (commandWord tag spare 2 par) t ∧
      Settled
        (afterPost s c (commandWord tag spare 2 par)
          (cueEnded (postedCue .ret tag (s.cam c)) .stackEmpty 0 (s.cam c)) .stackEmpty) t

/-- A RETURN posted to an IDLE camera with a record on its stack is planned to that record. NO_TRAVEL, TOO_LONG and, for a ROAMING camera, a
BLOCKED cell in the claim end it with the plan as it stood. Otherwise the plan and the claim are kept and the reasons formed: STOP with the
latch, TALLY on air with an off-air plan, FLOOR when the floor axes travel and a cell of the claim is not the camera's. With STOP or TALLY it
waits; with FLOOR alone the claim is tried; with none the move begins: the record is popped, the origin pushed in its place when PUSH is set
(R48, R50, R54, R98, R102, R104, R106, R25). -/
def Obligations.PlanningIsTaken : Prop :=
  ∀ (s : State) (c : Cam) (tag : BitVec 8) (spare : BitVec 4) (par : BitVec 2) (w : MWord) (q : Cue) (k : Camera) (top : Positions)
    (below : List Positions) (planned : Planned), w = commandWord tag spare 2 par → Posting s c w →
    (s.cam c).state = .idle → (s.cam c).queue = [] → (s.cam c).active = none → (s.cam c).stack = top :: below →
    q = postedCue .ret tag (s.cam c) → k = { s.cam c with active := some q } →
    planned =
      planMove (s.cam c).cfg (s.cam c).setpoints
        { target := top, duration := (s.cam c).latches[1].value.toNat
          ramp := if (s.cam c).latches[2].value = 65535 then (s.cam c).cfg.ramp
            else clampNat 0 32767 (s.cam c).latches[2].value.toNat
          onAir := (s.cam c).latches[3].value.getLsbD 5 } →
    ∃ t, exec (.ret c tag spare par) s = .next t ∧ MemoryPut s (addrOf s.base (mailboxOff c 0)) w t ∧
      PlanningGives s c q k planned (fun k' code => Settled (afterPost s c w k' code) t)
        fun g k' => Settled (afterQuietPost (withCells g s) c w k') t

/-- The request of a GOTO and of a RETURN takes its duration and ramp from the cue, and from the shot or the camera where the cue leaves them
open, and a GOTO's targets from the axes the shot carries. From the targets and the mask that stages 1 and 2 give, a planning with no travel is
NO_TRAVEL; else N is the least number of frames that is enough, above 65535 TOO_LONG; else the plan keeps origin, target, travel, mask, N and
the tally cap, 256 on air and the greatest rate within the on-air speeds otherwise (R17 to R22, R24). -/
def Obligations.PlannerStages : Prop :=
  (∀ (k : Camera) (q : Cue) (ws : List (BitVec 16)) (rec : Positions),
    (gotoRequest k q ws).duration = (if q.duration = 0 then (ws.getD 1 0).toNat else q.duration.toNat) ∧
    (returnRequest k q rec).duration = q.duration.toNat ∧
    (q.ramp ≠ 65535 →
      Clamped 0 32767 q.ramp.toNat (gotoRequest k q ws).ramp ∧ Clamped 0 32767 q.ramp.toNat (returnRequest k q rec).ramp) ∧
    (q.ramp = 65535 →
      Clamped 0 32767 (ws.getD 2 0).toNat (gotoRequest k q ws).ramp ∧ (returnRequest k q rec).ramp = k.cfg.ramp) ∧
    (gotoRequest k q ws).onAir = q.onAir ∧ (returnRequest k q rec).onAir = q.onAir ∧ (returnRequest k q rec).target = rec ∧
    ∀ a : Axis,
      ((ws.getD 0 0).getLsbD a.val = true →
        (gotoRequest k q ws).target[a] = (ws.getD (4 + 2 * a.val) 0 ++ ws.getD (3 + 2 * a.val) 0 : BitVec 32).toInt) ∧
      ((ws.getD 0 0).getLsbD a.val = false → (gotoRequest k q ws).target[a] = k.setpoints[a])) ∧
  ∀ (cfg : CamConfig) (o : Positions) (req : MoveRequest) (target : Positions) (detail : BitVec 7), StagesGive cfg o req target detail →
    ((∀ a : Axis, ¬Travels cfg o target a) → planMove cfg o req = .noTravel detail) ∧
    ∀ (a : Axis) (n : Nat), Travels cfg o target a → Least (EnoughFrames cfg o req target) n →
      (65535 < n → planMove cfg o req = .tooLong) ∧
      (n ≤ 65535 → ∃ pl, planMove cfg o req = .plan pl ∧ pl.target = target ∧ pl.detail = detail ∧ pl.n = n ∧ pl.onAir = req.onAir ∧
        (∀ b : Axis, pl.origin[b] = if inMask cfg.mask b then o[b] else 0) ∧ (∀ b : Axis, pl.delta[b] = pl.target[b] - pl.origin[b]) ∧
        (req.onAir = true → pl.c = 256) ∧ (req.onAir = false → Greatest (WithinCap cfg o target pl.n pl.r) pl.c))

/-- A HALT in MOVING sets the halt mark and the rate target 0, and the camera is HALTING; in HALTING and HALTED it ends DONE with no change
(R76, R55, R57, R58). -/
def Obligations.HaltSlowsTheMove : Prop :=
  ∀ (s : State) (c : Cam) (tag : BitVec 8) (spare : BitVec 4) (par : BitVec 2), Posting s c (commandWord tag spare 3 par) →
    movingState (s.cam c).state = true →
    ∃ t, exec (.halt c tag spare par) s = .next t ∧
      MemoryPut s (addrOf s.base (mailboxOff c 0)) (commandWord tag spare 3 par) t ∧
      ((s.cam c).state = .moving →
        Settled
          (afterPost s c (commandWord tag spare 3 par)
            (withResult tag 3 .done 0 { s.cam c with halt := true, rt := 0, state := .halting }) .done) t) ∧
      ((s.cam c).state ≠ .moving →
        Settled (afterPost s c (commandWord tag spare 3 par) (withResult tag 3 .done 0 (s.cam c)) .done) t)

/-- A RESUME in a state that accepts it is refused with STOP_ACTIVE while the stop line is asserted, and clears the stop latch and the halt
mark otherwise: a HALTING or HALTED camera is MOVING again with its rate target formed; a WAITING camera loses STOP and begins its move when
no reason is left (R77, R51, R54, R57, R58). -/
def Obligations.ResumeClearsTheLatch : Prop :=
  ∀ (s : State) (c : Cam) (tag : BitVec 8) (spare : BitVec 4) (par : BitVec 2), Posting s c (commandWord tag spare 4 par) →
    enabledState (s.cam c).state = true → ¬((s.cam c).state = .halting ∧ (s.cam c).abandon = true) →
    ∃ t, exec (.resume c tag spare par) s = .next t ∧
      MemoryPut s (addrOf s.base (mailboxOff c 0)) (commandWord tag spare 4 par) t ∧
      (s.lines.stop = true →
        Settled (afterPost s c (commandWord tag spare 4 par) (withResult tag 4 .stopActive 0 (s.cam c)) .stopActive) t) ∧
      (s.lines.stop = false →
        ((s.cam c).state = .halting ∨ (s.cam c).state = .halted →
          Settled
            (afterPost s c (commandWord tag spare 4 par)
              (withResult tag 4 .done 0
                { s.cam c with
                  stopLatch := false, halt := false, state := .moving, rt := runningTarget (s.cam c) (s.cam c).plan.c })
              .done) t) ∧
        ((s.cam c).state = .waiting → (s.cam c).waitStop = false ∨ (s.cam c).waitTally = true →
          Settled
            (afterPost s c (commandWord tag spare 4 par)
              (withResult tag 4 .done 0 { s.cam c with stopLatch := false, halt := false, waitStop := false }) .done) t) ∧
        ((s.cam c).state = .waiting → (s.cam c).waitStop = true → (s.cam c).waitTally = false → (s.cam c).waitFloor = false →
          ∀ q : Cue, (s.cam c).active = some q →
          Settled
            (afterPost s c (commandWord tag spare 4 par)
              (withResult tag 4 .done 0 (moveBegun q { s.cam c with stopLatch := false })) .done) t) ∧
        ((s.cam c).state = .idle ∨ (s.cam c).state = .fetching ∨ (s.cam c).state = .moving ∨ (s.cam c).state = .direct →
          Settled
            (afterPost s c (commandWord tag spare 4 par)
              (withResult tag 4 .done 0 { s.cam c with stopLatch := false, halt := false }) .done) t))

/-- A RESUME that leaves FLOOR as the sole reason tries the camera's claim. A BLOCKED cell in it ends the cue KEEP_OUT, recorded before the
RESUME's DONE, and the camera takes its next head, here a GOTO; else a cell HELD by another camera denies it, and the camera waits on; else every
FREE cell of the claim becomes HELD by the camera, its held rectangle is the claim, and its move begins (R106, R51, R54, R85; log 20 for the
order). -/
def Obligations.ResumeTriesTheClaim : Prop :=
  ∀ (s : State) (c : Cam) (tag : BitVec 8) (spare : BitVec 4) (par : BitVec 2) (w : MWord) (r : Rect) (q : Cue),
    w = commandWord tag spare 4 par → Posting s c w → s.lines.stop = false → (s.cam c).state = .waiting → (s.cam c).waitStop = true →
    (s.cam c).waitTally = false → (s.cam c).waitFloor = true → (s.cam c).claim = some r → (s.cam c).active = some q →
    ∃ t, exec (.resume c tag spare par) s = .next t ∧ MemoryPut s (addrOf s.base (mailboxOff c 0)) w t ∧
      (TryGives s.floor.cells c r .keepOut → GotoNext (s.cam c) → ShotQuiet s.shot →
        Settled
          { afterPost s c w
              (headTaken (withResult tag 4 .done 0 (cueEnded q .keepOut 0 { s.cam c with stopLatch := false, halt := false })))
              .keepOut with
            shot := headAsked c (s.cam c) s.shot } t) ∧
      (TryGives s.floor.cells c r .denied →
        Settled
          (afterPost s c w (withResult tag 4 .done 0 { s.cam c with stopLatch := false, halt := false, waitStop := false }) .done) t) ∧
      (TryGives s.floor.cells c r .granted →
        Settled
          (afterPost (withCells (cellsTried s.floor.cells c r .granted) s) c w
            (withResult tag 4 .done 0 { moveBegun q { s.cam c with stopLatch := false } with held := some r }) .done) t)

/-- An ABANDON in MOVING and HALTING sets both marks and the rate target 0, and the camera is HALTING. In FETCHING, WAITING and HALTED the
active cue ends ABANDONED at the post, a fetch being cancelled, and then the ABANDON DONE; the camera is IDLE where it stands, both marks clear,
a ROAMING camera giving back what it holds outside its parked rectangle, and takes the head of its queue, here a GOTO (R78, R49, R53, R55, R57,
R58, R59, R85, R88, R48). -/
def Obligations.AbandonGivesUpTheCue : Prop :=
  ∀ (s : State) (c : Cam) (tag : BitVec 8) (spare : BitVec 4) (par : BitVec 2) (w : MWord), w = commandWord tag spare 5 par →
    Posting s c w → activeState (s.cam c).state = true →
    ∃ t, exec (.abandon c tag spare par) s = .next t ∧ MemoryPut s (addrOf s.base (mailboxOff c 0)) w t ∧
      ((s.cam c).state = .moving ∨ (s.cam c).state = .halting →
        Settled
          (afterPost s c w (withResult tag 5 .done 0 { s.cam c with halt := true, abandon := true, rt := 0, state := .halting }) .done)
          t) ∧
      (∀ (q : Cue) (k : Camera) (e : ShotEngine) (g : Grid Cell), (s.cam c).active = some q → GotoNext (s.cam c) → ShotQuiet s.shot →
        CueGivenUp s c q k e g →
        Settled
          { afterPost (withCells g s) c w (headTaken (withResult tag 5 .done 0 k)) .done with shot := headAsked c k e } t)

/-- A release examination tries each waiting camera's claim once, by the level of its active cue and then by camera number, each on the cells
the tries before it left. It follows a DISABLE, whether or not a cell was freed, an ABANDON of a halted ROAMING camera, and the removal of an
ACTIVE zone. A BLOCKED cell ends the camera's cue KEEP_OUT and it takes its next head, here a GOTO; a cell HELD by another denies; else the
claim is granted and the move begins. A camera that does not wait for floor is unchanged (R107, R106, R110, R111, R116). -/
def Obligations.ReleaseExamination : Prop :=
  ∀ (s : State) (i : Instr) (c : Cam) (g h : Grid Cell) (l : List ExamTry), Releases s i c g →
    (∀ x : Cam, x ≠ c → (inWaitingSet (s.cam x) = true ↔ ∃ e ∈ l, e.cam = x)) → l.Pairwise ExamBefore →
    (∀ e ∈ l, e.cam ≠ c ∧ (s.cam e.cam).active = some e.cue ∧ (s.cam e.cam).claim = some e.claim ∧ GotoNext (s.cam e.cam)) →
    TriesGive g l h →
    ∃ t, exec i s = .next t ∧ t.floor.cells = h ∧
      (∀ e ∈ l, t.cam e.cam = cameraTried e.cue e.claim (s.cam e.cam) e.outcome) ∧
      ∀ x : Cam, x ≠ c → inWaitingSet (s.cam x) = false → t.cam x = s.cam x

/-- An OVERRIDE posted to an enabled camera sets its override to ARG clamped to 1..256, and ends DONE, or DONE_CLAMPED when ARG was 0 or above
256, the detail being the override in force; a move that runs or rests has its rate target formed again. A FLUSH posted to an enabled camera
removes every queued cue with no result of its own and ends DONE with their number; the active cue and the move are not touched (R79, R31, R32,
R80). -/
def Obligations.OverrideAndFlush : Prop :=
  (∀ (s : State) (c : Cam) (tag : BitVec 8) (spare : BitVec 4) (par : BitVec 2) (n v : Nat),
     Posting s c (commandWord tag spare 6 par) → enabledState (s.cam c).state = true → n = (s.cam c).latches[0].value.toNat →
     v = (if n < 1 then 1 else if 256 < n then 256 else n) →
     ∃ t, exec (.override c tag spare par) s = .next t ∧
       MemoryPut s (addrOf s.base (mailboxOff c 0)) (commandWord tag spare 6 par) t ∧
       (movingState (s.cam c).state = false →
         Settled
           (afterPost s c (commandWord tag spare 6 par)
             (withResult tag 6 (if 1 ≤ n ∧ n ≤ 256 then .done else .doneClamped) (BitVec.ofNat 16 v)
               { s.cam c with override := v }) .done) t) ∧
       (movingState (s.cam c).state = true →
         Settled
           (afterPost s c (commandWord tag spare 6 par)
             (withResult tag 6 (if 1 ≤ n ∧ n ≤ 256 then .done else .doneClamped) (BitVec.ofNat 16 v)
               { s.cam c with
                 override := v
                 rt := if (s.cam c).halt then 0 else if (s.cam c).onAir then Nat.min v (s.cam c).plan.c else v }) .done) t)) ∧
  ∀ (s : State) (c : Cam) (tag : BitVec 8) (spare : BitVec 4) (par : BitVec 2), Posting s c (commandWord tag spare 7 par) →
    enabledState (s.cam c).state = true →
    ∃ t, exec (.flush c tag spare par) s = .next t ∧
      MemoryPut s (addrOf s.base (mailboxOff c 0)) (commandWord tag spare 7 par) t ∧
      Settled
        (afterPost s c (commandWord tag spare 7 par)
          (withResult tag 7 .done (BitVec.ofNat 16 (s.cam c).queue.length) { s.cam c with queue := [] }) .done) t

/-- A CAPTURE posted to an enabled camera is refused with BAD_ARG when ARG is above 63, and with BUSY while a CAPTURE of the camera is
outstanding. Otherwise its request, with the setpoints of the present axes, the mask, the duration and the ramp of the post, joins the Shot
Engine, and the camera does not change (R81, R93). -/
def Obligations.CaptureIsAsked : Prop :=
  ∀ (s : State) (c : Cam) (tag : BitVec 8) (spare : BitVec 4) (par : BitVec 2) (req : ShotReq),
    Posting s c (commandWord tag spare 8 par) → enabledState (s.cam c).state = true → ShotQuiet s.shot →
    req = ⟨c, (s.cam c).latches[0].value.toNat, tag,
      .capture (positionsOf fun a => if inMask (s.cam c).cfg.mask a then (s.cam c).setpoints[a] else 0) (s.cam c).cfg.mask
        (s.cam c).latches[1].value
        (if (s.cam c).latches[2].value = 65535 then BitVec.ofNat 16 (s.cam c).cfg.ramp
          else BitVec.ofNat 16 (clampNat 0 32767 (s.cam c).latches[2].value.toNat))⟩ →
    ∃ t, exec (.capture c tag spare par) s = .next t ∧
      MemoryPut s (addrOf s.base (mailboxOff c 0)) (commandWord tag spare 8 par) t ∧
      (63 < (s.cam c).latches[0].value.toNat →
        Settled
          (afterPost s c (commandWord tag spare 8 par) (withResult tag 8 .badArg (s.cam c).latches[0].value (s.cam c)) .badArg) t) ∧
      ((s.cam c).latches[0].value.toNat ≤ 63 →
        ((∃ r, (r ∈ s.shot.fifo ∨ ∃ op, s.shot.op = some op ∧ op.req = r) ∧ r.cam = c ∧ r.work ≠ .fetch) →
          Settled (afterPost s c (commandWord tag spare 8 par) (withResult tag 8 .busy 0 (s.cam c)) .busy) t) ∧
        ((∀ r, (r ∈ s.shot.fifo ∨ ∃ op, s.shot.op = some op ∧ op.req = r) → r.cam = c → r.work = .fetch) →
          Settled
            { afterQuietPost s c (commandWord tag spare 8 par) (s.cam c) with
              shot := if s.shot.op = none then ⟨[], some ⟨req, [], 0, 1, false⟩, []⟩
                else { s.shot with fifo := s.shot.fifo ++ [req] } } t))

/-- A DIRECT posted to an IDLE camera ends DONE with the camera in DIRECT and its setpoints as the direct targets, and the fill of its slots
begins with its first present axis when no other fill waits and no write-out is under way; that the fill ranks so, and begins at this event,
are the model's inferences (logs 19 and 32). A RELEASE posted in DIRECT ends DONE with the camera IDLE where it stands, the direct targets
dropped, and takes the head of the queue, here a GOTO. An ENABLE posted to an OFFLINE camera is accepted with no result: the camera is
ADOPTING, CONFIG_STALE is cleared, and its adoption stands behind those accepted before it (R62, R63, R82, R140, R48, R43, R44). -/
def Obligations.DirectReleaseAndEnable : Prop :=
  ∀ (s : State) (c : Cam) (tag : BitVec 8) (spare : BitVec 4) (par : BitVec 2),
    (Posting s c (commandWord tag spare 9 par) → (s.cam c).state = .idle →
      ∃ t, exec (.direct c tag spare par) s = .next t ∧
        MemoryPut s (addrOf s.base (mailboxOff c 0)) (commandWord tag spare 9 par) t ∧
        Settled
          (afterPost s c (commandWord tag spare 9 par)
            (withResult tag 9 .done 0 { s.cam c with state := .direct, direct := some (s.cam c).setpoints }) .done) t ∧
        (∀ a : Axis, s.setp.fills = [] → (∀ w ∈ s.setp.writeOuts, w.granted = 0) → inMask (s.cam c).cfg.mask a = true →
          (∀ b : Axis, b < a → inMask (s.cam c).cfg.mask b = false) →
          t.port.cur =
            some ⟨.fill c, addrOf s.base (frameOff c (48 + 2 * a.val)), some (goodWord (lowHalf (s.cam c).setpoints[a])),
              some (goodWord (highHalf (s.cam c).setpoints[a])), true⟩)) ∧
    (Posting s c (commandWord tag spare 10 par) → (s.cam c).state = .direct → GotoNext (s.cam c) → ShotQuiet s.shot →
      ∃ t, exec (.release c tag spare par) s = .next t ∧
        MemoryPut s (addrOf s.base (mailboxOff c 0)) (commandWord tag spare 10 par) t ∧
        Settled
          { afterPost s c (commandWord tag spare 10 par)
              (headTaken (withResult tag 10 .done 0 { s.cam c with state := .idle, direct := none })) .done with
            shot := headAsked c (s.cam c) s.shot } t) ∧
    (Posting s c (commandWord tag spare 11 par) →
      (s.cam c).state = .offline →
      ∃ t, exec (.enable c tag spare par) s = .next t ∧
        MemoryPut s (addrOf s.base (mailboxOff c 0)) (commandWord tag spare 11 par) t ∧
        Settled
          { afterQuietPost s c (commandWord tag spare 11 par)
              { s.cam c with state := .adopting, stale := false, adoption := some ⟨tag, [], false, false⟩ } with
            adoptQueue := s.adoptQueue ++ [c] } t)

/-- A DISABLE takes a camera out of service, here with no other camera waiting for floor. An ADOPTING camera's ENABLE ends ABANDONED first,
and its queued cues are dropped and counted. An enabled camera drops its queued cues and its active cue, counted in the detail, and its stack,
marks, reasons, latch, direct targets, on-air state, config and floor; its setpoints, plan, override and CONFIG_STALE stand. Its fetch is
cancelled and its outstanding CAPTURE ends ABANDONED first, and a Shot Engine so freed starts its next request (R45, R64, R81, R87, R88,
R111). -/
def Obligations.DisableTakesTheCameraOut : Prop :=
  ∀ (s : State) (c : Cam) (tag : BitVec 8) (spare : BitVec 4) (par : BitVec 2) (w : MWord), w = commandWord tag spare 12 par →
    Posting s c w → (s.cam c).state ≠ .offline → NoneWaits c s →
    ∃ t, exec (.disable c tag spare par) s = .next t ∧ MemoryPut s (addrOf s.base (mailboxOff c 0)) w t ∧
      (∀ ad : Adoption, (s.cam c).state = .adopting → (s.cam c).adoption = some ad →
        Settled
          { afterPost s c w
              (withResult tag 12 .done (BitVec.ofNat 16 (s.cam c).queue.length)
                (withResult ad.tag 11 .abandoned 0
                  { s.cam c with state := .offline, adoption := none, queue := [], cfg := emptyConfig })) .done with
            adoptQueue := s.adoptQueue.filter (· != c) } t) ∧
      (∀ (k : Camera) (n : BitVec 16), enabledState (s.cam c).state = true → ShotQuiet s.shot →
        k =
          { s.cam c with
            state := .offline, halt := false, abandon := false, waitStop := false, waitTally := false, waitFloor := false
            onAir := false, stopLatch := false, cfg := emptyConfig, direct := none, queue := [], active := none, stack := []
            held := none, claim := none, waitCount := 0 } →
        n = BitVec.ofNat 16 ((s.cam c).queue.length + (if (s.cam c).active.isSome then 1 else 0)) →
        ∀ k' : Camera,
          ((∀ r : ShotReq, Outstanding s.shot r → r.cam = c → r.work = .fetch) ∧ k' = k ∨
            ∃ r : ShotReq, Outstanding s.shot r ∧ r.cam = c ∧ r.work ≠ .fetch ∧
              (∀ r' : ShotReq, Outstanding s.shot r' → r'.cam = c → r'.work ≠ .fetch → r' = r) ∧
              k' = withResult r.tag 8 .abandoned 0 k) →
          Settled
            { afterPost (withCells (cellsLeft s.floor c) s) c w (withResult tag 12 .done n k') .done with
              setp := { s.setp with writeOuts := s.setp.writeOuts.filter (·.cam != c) }
              shot := shotStarted (shotWithout (·.cam == c) s.shot).fifo (shotWithout (·.cam == c) s.shot).op } t)

/-! The ends of own accesses -/

/-- A read of an adoption that is not the last is taken when its parity is good, and noted as a fault and captured as OWN_PARITY otherwise.
With the last, the checks of R46 in their order give the ENABLE's result: a failure returns the camera to OFFLINE with its queue dropped and
its config empty; success takes the config and the adopted positions, and, for a ROAMING camera, the floor, and the camera is IDLE and takes
its head, here a GOTO. A last read of bad parity ends it READ_PARITY (R44, R46, R47, R48). -/
def Obligations.AdoptionReadEnds : Prop :=
  ∀ (s : State) (c : Cam) (a : Addr) (answer : Option MWord) (w : MWord) (ad : Adoption) (taken : List (Option (BitVec 16))),
    HostWaits s → s.port.cur = some ⟨.adoption c, a, none, none, true⟩ → (s.cam c).adoption = some ad →
    answer.getD (s.read a) = w → taken = ad.taken ++ [if wordOk w then some w.data else none] →
    ∃ t, exec (.adoptionReadEnd answer) s = .next t ∧ SameMemory s t ∧
      ((adoptNext c taken).isSome = true →
        (wordOk w = true → Settled (withCam c { s.cam c with adoption := some { ad with taken := taken } } s) t) ∧
        (wordOk w = false →
          Settled
            (withCam c { s.cam c with adoption := some { ad with taken := taken, fault := true } }
              (withError .ownParity true a w s)) t)) ∧
      (adoptNext c taken = none → wordOk w = false →
        Settled
          { withCam c
              (withResult ad.tag 11 .readParity 0 { s.cam c with state := .offline, adoption := none, queue := [], cfg := emptyConfig })
              (withError .ownParity true a w s) with
            adoptQueue := s.adoptQueue.filter (· != c)
            stat :=
              { (withError .ownParity true a w s).stat with
                flags := s.stat.flags ||| flagParityFault ||| flagCueResult ||| flagCueRefused } } t) ∧
      (adoptNext c taken = none → wordOk w = true →
        (∀ (code : Code) (detail : BitVec 16), code ≠ .done →
          (ad.fault = true ∧ code = .readParity ∧ detail = 0 ∨
            ad.fault = false ∧ configInvalid taken = true ∧ code = .configInvalid ∧ detail = 0 ∨
            ad.fault = false ∧ configInvalid taken = false ∧ outOfLimits taken ≠ 0 ∧ code = .outOfLimits ∧
              detail = (outOfLimits taken).setWidth 16 ∨
            ad.fault = false ∧ configInvalid taken = false ∧ outOfLimits taken = 0 ∧
              (pendingConfig taken).kind = some .roaming ∧
              (∃ x y : Fin 32, inRect (adoptedRect s.floor taken) x y = true ∧ gridAt s.floor.cells x y ≠ .free ∧
                gridAt s.floor.cells x y ≠ .held c) ∧ code = .floorConflict ∧ detail = 0) →
          Settled
            { withCam c
                (withResult ad.tag 11 code detail
                  { s.cam c with state := .offline, adoption := none, queue := [], cfg := emptyConfig }) s with
              adoptQueue := s.adoptQueue.filter (· != c)
              stat := { s.stat with flags := s.stat.flags ||| flagCueResult ||| flagCueRefused } } t) ∧
        (ad.fault = false → configInvalid taken = false → outOfLimits taken = 0 → (pendingConfig taken).kind ≠ some .roaming →
          GotoNext (s.cam c) → ShotQuiet s.shot →
          Settled
            { withCam c
                (headTaken (withResult ad.tag 11 .done 0
                  { s.cam c with
                    state := .idle, halt := false, abandon := false, waitStop := false, waitTally := false, waitFloor := false
                    onAir := (match (pendingConfig taken).tally with | some n => s.lines.onAir[n] | none => false)
                    stopLatch := s.lines.stop || ad.stopSeen, cfg := pendingConfig taken, adoption := none, plan := emptyPlan
                    p := 0, rate := 0, rt := 0, q := 0, override := 256, setpoints := adoptedPositions taken, direct := none
                    stack := [], held := none, claim := none, waitCount := 0
                    activeBank := if adoptValid taken then adoptBank taken else .b })) s with
              shot := headAsked c (s.cam c) s.shot
              adoptQueue := s.adoptQueue.filter (· != c)
              stat := { s.stat with flags := s.stat.flags ||| flagCueResult } } t) ∧
        (ad.fault = false → configInvalid taken = false → outOfLimits taken = 0 → (pendingConfig taken).kind = some .roaming →
          (∀ x y : Fin 32, inRect (adoptedRect s.floor taken) x y = true →
            gridAt s.floor.cells x y = .free ∨ gridAt s.floor.cells x y = .held c) → (s.cam c).queue = [] →
          (t.cam c).state = .idle ∧ (t.cam c).held = some (adoptedRect s.floor taken) ∧
          (t.cam c).setpoints = adoptedPositions taken ∧ (t.cam c).result = ⟨ad.tag, 11, .done, 0⟩ ∧
          ∀ x y : Fin 32, gridAt t.floor.cells x y =
            (if inRect (adoptedRect s.floor taken) x y = true then .held c else gridAt s.floor.cells x y)))

/-- The words an adoption has taken give the applied config, each value brought into its range: the kind and the mask its kind allows, the limits
and speeds of each present axis with Von brought down to Voff, the tally line, slew step, margin, floor wait limit and default ramp; and the
config is invalid with an unknown kind, a ROAMING camera without both floor axes, or a present axis whose limits cross. The reads are as many as
the mask and VALID ask. The adopted position of a present axis is its pair of the active bank when the control word is VALID and its home
otherwise, 0 for an absent one, and the present axes whose position lies outside their limits are named (R2, R5 to R14, R44, R46, R47). -/
def Obligations.ConfigIsClamped : Prop :=
  ∀ (taken : List (Option (BitVec 16))) (cfg : CamConfig), cfg = pendingConfig taken →
    cfg.kind =
      (if takenWord taken 0 = 1 then some .head else if takenWord taken 0 = 2 then some .pedestal
        else if takenWord taken 0 = 3 then some .roaming else none) ∧
    (∀ a : Axis, inMask cfg.mask a = true ↔
      ∃ k m : BitVec 16, taken.getD 0 none = some k ∧ taken.getD 1 none = some m ∧ m.getLsbD a.val = true ∧
        (k = 1 ∧ a.val < 4 ∨ k = 2 ∧ a.val < 5 ∨ k = 3)) ∧
    (∀ (a : Axis) (i : Nat), inMask cfg.mask a = true → i = 8 + 10 * axesBefore cfg.mask a →
      Clamped (-1073741824) 1073741823 (takenPair taken i) cfg.axes[a].min ∧
      Clamped (-1073741824) 1073741823 (takenPair taken (i + 2)) cfg.axes[a].max ∧
      Clamped 0 1048575 (takenPair taken (i + 4)) cfg.axes[a].voff ∧
      ∀ von : Int, Clamped 0 1048575 (takenPair taken (i + 6)) von → cfg.axes[a].von = min von cfg.axes[a].voff) ∧
    (∀ n : Fin 8, cfg.tally = some n ↔ (takenWord taken 2).toNat = n.val) ∧ Clamped 1 256 (takenWord taken 3).toNat cfg.slew ∧
    Clamped 0 16777216 (takenPair taken 4) cfg.margin ∧ cfg.floorLimit = (takenWord taken 6).toNat ∧
    Clamped 0 32767 (takenWord taken 7).toNat cfg.ramp ∧
    (configInvalid taken = true ↔
      cfg.kind = none ∨
      cfg.kind = some .roaming ∧ ((takenWord taken 1).getLsbD 5 = false ∨ (takenWord taken 1).getLsbD 6 = false) ∨
      ∃ a : Axis, inMask cfg.mask a = true ∧ cfg.axes[a].max < cfg.axes[a].min) ∧
    (∀ (a : Axis) (i c : Nat), i = 8 + 10 * axesBefore cfg.mask a → c = 8 + 10 * (maskAxes cfg.mask).length →
      (inMask cfg.mask a = false → (adoptedPositions taken)[a] = 0) ∧
      (inMask cfg.mask a = true → (takenWord taken c).getLsbD 15 = false → (adoptedPositions taken)[a] = takenPair taken (i + 8)) ∧
      (inMask cfg.mask a = true → (takenWord taken c).getLsbD 15 = true →
        (adoptedPositions taken)[a] = takenPair taken (c + 1 + 2 * axesBefore cfg.mask a)) ∧
      ((outOfLimits taken).getLsbD a.val = true ↔ inMask cfg.mask a = true ∧
        ((adoptedPositions taken)[a] < cfg.axes[a].min ∨ cfg.axes[a].max < (adoptedPositions taken)[a]))) ∧
    ∀ (d : Cam) (c : Nat), c = 8 + 10 * (maskAxes cfg.mask).length →
      (adoptNext d taken = none ↔
        c + 1 + (if (takenWord taken c).getLsbD 15 = true then 2 * (maskAxes cfg.mask).length else 0) ≤ taken.length) ∧
      ((takenWord taken c).getLsbD 15 = adoptValid taken) ∧
      adoptBank taken = (if (takenWord taken c).getLsbD 14 = true then .b else .a)

/-- A read of a fetch: bad parity ends it READ_PARITY, captured as OWN_PARITY; a first word with VALID clear ends it SHOT_EMPTY, the
camera taking its next head, here a GOTO; another word joins the attempt; the seventeenth hands the record over and the GOTO is planned
from it: NO_TRAVEL, TOO_LONG and KEEP_OUT end it and the camera takes its next head, and otherwise it waits with its reasons, has its claim tried, or begins its move
(R90, R92, R49, R50, R54, R104, R106). -/
def Obligations.FetchReadEnds : Prop :=
  ∀ (s : State) (a : Addr) (answer : Option MWord) (w : MWord) (op : ShotOp) (c : Cam) (q : Cue), HostWaits s →
    s.port.cur = some ⟨.fetch, a, none, none, true⟩ → answer.getD (s.read a) = w → s.shot = ⟨[], some op, []⟩ → op.req.cam = c →
    (s.cam c).state = .fetching → (s.cam c).active = some q → GotoNext (s.cam c) →
    ∃ t, exec (.fetchReadEnd answer) s = .next t ∧ SameMemory s t ∧
      (wordOk w = false →
        Settled
          { withCam c (headTaken (cueEnded q .readParity 0 (s.cam c))) (withError .ownParity true a w s) with
            shot := headAsked c (s.cam c) ⟨[], none, []⟩
            stat :=
              { (withError .ownParity true a w s).stat with
                flags := s.stat.flags ||| flagParityFault ||| flagCueResult ||| flagCueRefused } } t) ∧
      (wordOk w = true → op.words = [] → w.data.getLsbD 15 = false →
        Settled
          { withCam c (headTaken (cueEnded q .shotEmpty 0 (s.cam c))) s with
            shot := headAsked c (s.cam c) ⟨[], none, []⟩
            stat := { s.stat with flags := s.stat.flags ||| flagCueResult ||| flagCueRefused } } t) ∧
      (wordOk w = true → op.words ≠ [] ∨ w.data.getLsbD 15 = true → op.words.length < 16 →
        Settled { s with shot := ⟨[], some { op with words := op.words ++ [w.data] }, []⟩ } t) ∧
      (wordOk w = true → op.words.length = 16 →
        PlanningGives s c q (s.cam c) (planMove (s.cam c).cfg (s.cam c).setpoints (gotoRequest (s.cam c) q (op.words ++ [w.data])))
          (fun k' code =>
            Settled
              { withCam c (headTaken k') s with
                shot := headAsked c (s.cam c) ⟨[], none, []⟩, stat := { s.stat with flags := s.stat.flags ||| resultFlags code } } t)
          fun g k' => Settled { withCam c k' (withCells g s) with shot := ⟨[], none, []⟩ } t)

/-- A write of a capture is in memory; with the seventeenth the capture ends DONE, or DONE_OVERLAP when its overlap mark is set, and the Shot
Engine is free. A write of a write-out is in memory; with its control word the write-out is finished, and the camera's active bank is the bank
it filled. The low half of a fill's pair in memory is followed by its high half under the same grant, and the high half ends the pair; a
status write is in memory, and a group under way goes on to its next word when no other requester asks (R94, R95, R134, R140, R161, R168). -/
def Obligations.OwnWritesEnd : Prop :=
  (∀ (s : State) (a : Addr) (w : MWord) (op : ShotOp), MemoryForm s → HostWaits s →
     s.port.cur = some ⟨.capture, a, some w, none, true⟩ → s.shot = ⟨[], some op, []⟩ →
     ∃ t, exec .captureWriteEnd s = .next t ∧ MemoryPut s a w t ∧
       (op.written < 16 → Settled { s with shot := ⟨[], some { op with written := op.written + 1 }, []⟩ } t) ∧
       (op.written = 16 →
         Settled
           { withCam op.req.cam
               (withResult op.req.tag 8 (if op.overlap then .doneOverlap else .done) 0 (s.cam op.req.cam)) s with
             shot := ⟨[], none, []⟩, stat := { s.stat with flags := s.stat.flags ||| flagCueResult } } t)) ∧
  (∀ (s : State) (a : Addr) (w : MWord) (c : Cam) (bank : Bank), MemoryForm s → HostWaits s →
     (s.port.cur = some ⟨.writeOut c bank false, a, some w, none, true⟩ →
       ∃ t, exec .writeOutWriteEnd s = .next t ∧ MemoryPut s a w t ∧ Settled s t) ∧
     (s.port.cur = some ⟨.writeOut c bank true, a, some w, none, true⟩ →
       ∃ t, exec .writeOutWriteEnd s = .next t ∧ MemoryPut s a w t ∧
         Settled
           (withCam c { s.cam c with activeBank := bank }
             { s with setp := { s.setp with writeOuts := s.setp.writeOuts.filter (·.cam != c) } }) t)) ∧
  (∀ (s : State) (a : Addr) (w : MWord), MemoryForm s → HostWaits s →
     (∀ (c : Cam) (h : MWord), s.port.cur = some ⟨.fill c, a, some w, some h, true⟩ →
       ∃ t, exec .directFillWriteEnd s = .next t ∧ MemoryPut s a w t ∧ Settled s t ∧
         t.port.cur = some ⟨.fill c, a + 1, some h, none, true⟩) ∧
     (∀ c : Cam, s.port.cur = some ⟨.fill c, a, some w, none, true⟩ →
       ∃ t, exec .directFillWriteEnd s = .next t ∧ MemoryPut s a w t ∧ Settled s t) ∧
     (∀ i : StatusItem, s.port.cur = some ⟨.status i, a, some w, none, true⟩ →
       ∃ t, exec .statusWriteEnd s = .next t ∧ MemoryPut s a w t ∧ Settled s t ∧
         ∀ (b : Addr) (d : BitVec 16) (rest : List (Addr × BitVec 16)), s.startup = .running → s.stat.rest = (b, d) :: rest →
           s.stat.item = some i → s.setp.writeOuts = [] → s.setp.fills = [] → s.shot = ⟨[], none, []⟩ → s.adoptQueue = [] →
           s.bus.req = none → s.bus.queue = [] → t.port.cur = some ⟨.status i, b, some (goodWord d), none, true⟩))

/-- Where the Setpoint Writer, the Shot Engine and the adoption ask, this is the address and the word each is granted next: a write-out its bank's
frame counter, its axis pairs in axis order, and last its control word; a capture its pairs, the ramp, the duration and word 0; a fetch words 0, 1,
2 and 4 to 17; an adoption the words of R44; the load its settings, fence and zone words, and then the device block and the probe result, the
records, the zone statuses and the floor image, each step's words in ascending order (logs 15 and 37: the model's). Shown as the end of a fill's
write frees the port, and for the load as the load's own accesses end (R134, R94, R90, R44, R164, R175, R176). -/
def Obligations.OwnAccessesInOrder : Prop :=
  (∀ (s : State) (d : Cam) (b : Addr) (v : MWord), FillEnding s d b v → s.bus.req = none → s.setp.fills = [] →
    ∃ t, exec .directFillWriteEnd s = .next t ∧ MemoryPut s b v t ∧
      (∀ (w : WriteOut) (rest : List WriteOut) (start : Nat), s.setp.writeOuts = w :: rest → w.granted ≤ 16 →
        start = (if w.bank = .a then 1 else 17) →
        t.setp.writeOuts = { w with granted := w.granted + 1 } :: rest ∧
        ∃ off word, t.port.cur = some ⟨.writeOut w.cam w.bank (decide (w.granted = 16)), addrOf s.base (frameOff w.cam off),
            some (goodWord word), none, true⟩ ∧
          (w.granted = 0 → off = start ∧ word = w.frame.extractLsb' 0 16) ∧
          (w.granted = 1 → off = start + 1 ∧ word = w.frame.extractLsb' 16 16) ∧
          (∀ (a : Axis) (h : Nat), h < 2 → w.granted = 2 + 2 * a.val + h →
            off = start + 2 + 2 * a.val + h ∧ word = pairHalf w.values[a] h) ∧
          (w.granted = 16 → off = 0 ∧ word = 1#1 ++ (if w.bank = .a then 0#1 else 1#1) ++ w.frame.extractLsb' 0 14)) ∧
      (s.setp.writeOuts = [] →
        (∀ op : ShotOp, s.shot.op = some op → op.req.work = .fetch →
          t.port.cur =
            some ⟨.fetch,
              addrOf s.base (shotOff op.req.cam op.req.shot (if op.words.length < 3 then op.words.length else op.words.length + 1)),
              none, none, true⟩) ∧
        (∀ (op : ShotOp) (vs : Positions) (mask : BitVec 7) (duration ramp : BitVec 16), s.shot.op = some op →
          op.req.work = .capture vs mask duration ramp → op.written ≤ 16 →
          ∃ off word, t.port.cur =
              some ⟨.capture, addrOf s.base (shotOff op.req.cam op.req.shot off), some (goodWord word), none, true⟩ ∧
            (∀ (a : Axis) (h : Nat), h < 2 → op.written = 2 * a.val + h → off = 4 + 2 * a.val + h ∧ word = pairHalf vs[a] h) ∧
            (op.written = 14 → off = 2 ∧ word = ramp) ∧ (op.written = 15 → off = 1 ∧ word = duration) ∧
            (op.written = 16 → off = 0 ∧ word = 1#1 ++ 0#8 ++ mask)) ∧
        (s.shot.op = none →
          (∀ (c : Cam) (rest : List Cam) (ad : Adoption) (off : Offset), s.startup = .running → s.adoptQueue = c :: rest →
            (s.cam c).adoption = some ad → AdoptionReads c ad.taken off →
            t.port.cur = some ⟨.adoption c, addrOf s.base off, none, none, true⟩) ∧
          (∀ n off : Nat, s.startup = .reading n → LoadReads n off →
            t.port.cur = some ⟨.startupRead n, addrOf s.base (BitVec.ofNat 16 off), none, none, true⟩) ∧
          (∀ (n off : Nat) (word : BitVec 16), s.startup = .writing n → LoadWrites s n off word →
            t.port.cur = some ⟨.startupWrite n, addrOf s.base (BitVec.ofNat 16 off), some (goodWord word), none, true⟩)))) ∧
  (∀ (s : State) (n : Nat) (a : Addr) (answer : Option MWord), s.port.cur = some ⟨.startupRead n, a, none, none, true⟩ → LoadAlone s →
    ∃ t, exec (.startupReadEnd answer) s = .next t ∧ SameMemory s t ∧
      (∀ off : Nat, LoadReads (n + 1) off →
        t.port.cur = some ⟨.startupRead (n + 1), addrOf s.base (BitVec.ofNat 16 off), none, none, true⟩) ∧
      (n = 132 → t.port.cur =
        some ⟨.startupWrite 0, addrOf s.base 0x40, some (goodWord (t.stat.flags.setWidth 16)), none, true⟩)) ∧
  ∀ (s : State) (n : Nat) (a : Addr) (w : MWord), MemoryForm s → s.port.cur = some ⟨.startupWrite n, a, some w, none, true⟩ → LoadAlone s →
    (∀ i : StatusItem, loadItem (n + 1) = some (i, false) → itemDue i s.stat = false) →
    ∃ t, exec .startupWriteEnd s = .next t ∧ MemoryPut s a w t ∧
      ∀ (off : Nat) (word : BitVec 16), LoadWrites s (n + 1) off word →
        t.port.cur = some ⟨.startupWrite (n + 1), addrOf s.base (BitVec.ofNat 16 off), some (goodWord word), none, true⟩

/-- When an access ends, the port goes to the host access that waits if the last grant was an own access's; else to the own requester of the
highest rank that asks: the Setpoint Writer, the Shot Engine, the adoption and the load, the Status Writer; else to the host; and it stays free
where none asks. Shown at HOST_ACCESS_END, with and without a next access of the host, and at each own end that brings no result (log 32: what
arises at the end counts at the grant). A host access decoded while the port is free and nothing asks is granted at once; that the port is
granted at all where several reach it free is given, which of them is not (R161; log 10). -/
def Obligations.ArbiterChooses : Prop :=
  (∀ (s u : State) (i : Instr), PortFrees s i u →
    ∃ t, exec i s = .next t ∧
      (∀ x : Access, u.bus.req = some x → s.port.lastOwn = true ∨ (∀ r : Fin 4, ¬Asks u r) →
        t.port.cur = some x ∧ t.bus.req = none ∧ t.port.lastOwn = false) ∧
      (∀ r : Fin 4, u.bus.req = none ∨ s.port.lastOwn = false → Asks u r → (∀ r' : Fin 4, r' < r → ¬Asks u r') →
        t.bus.req = u.bus.req ∧ t.port.lastOwn = true ∧ ∃ x, t.port.cur = some x ∧ ownRank x.owner = some r) ∧
      (u.bus.req = none → (∀ r : Fin 4, ¬Asks u r) → t.port.cur = none)) ∧
  ∀ (s : State) (off : Offset), HostReady s → s.port.cur = none → ShotQuiet s.shot →
    ∃ t, exec (.hostRead (addrOf s.base off)) s = .next t ∧ SameMemory s t ∧ t.port.cur.isSome = true ∧
      ((∀ r : Fin 4, ¬Asks s r) →
        t.port.cur = some ⟨.host .nothing false, addrOf s.base off, none, none, true⟩ ∧ t.port.lastOwn = false)

/-- When a write of the Status Writer ends its item and no other requester asks, the port is granted for the due item that stands first in the
order of R168: its mark is cleared and the others stand, the sequence number of a status record rises by one, the first of its words is written,
and the others follow in order. With nothing due the port stays free (R168, R170, R172 to R175). -/
def Obligations.StatusWriterTakesTheFirstDueItem : Prop :=
  ∀ (s : State) (j : StatusItem) (a : Addr) (w : MWord), MemoryForm s → s.startup = .running →
    s.port.cur = some ⟨.status j, a, some w, none, true⟩ → s.stat.rest = [] → s.setp.writeOuts = [] → s.setp.fills = [] →
    s.shot = ⟨[], none, []⟩ → s.adoptQueue = [] → s.bus.req = none → s.bus.queue = [] →
    ∃ t, exec .statusWriteEnd s = .next t ∧ MemoryPut s a w t ∧ Settled s t ∧
      ((∀ i : StatusItem, itemDue i s.stat = false) → t.port.cur = none ∧ t.stat.item = none ∧ t.stat.rest = []) ∧
      ∀ i : StatusItem, itemDue i s.stat = true → (∀ i' : StatusItem, itemDue i' s.stat = true → itemRank i ≤ itemRank i') →
        itemDue i t.stat = false ∧ (∀ i' : StatusItem, i' ≠ i → itemDue i' t.stat = itemDue i' s.stat) ∧
        (∀ c : Cam, t.stat.seq[c] = if i = .record c then s.stat.seq[c] + 1 else s.stat.seq[c]) ∧ Writes i s.base (itemTable s i) t

/-! Ticks -/

/-- The interval timer's expiry is a tick, and the next comes Tint later. In LOCKED the reference is lost: the sync state becomes HOLDOVER, the
qualify count 0 and SYNC_LOST is set, the recorded time of the last divided REF point standing. A serviced tick slews, advances and positions each
camera in MOVING or HALTING and steps each in DIRECT. A move whose progress reaches its end completes whatever its marks, DONE or DONE_CLAMPED with
the mask; a HALTING camera whose rate is 0 before the end is HALTED, or its cue ends ABANDONED; the ended cue's camera clears its marks, a ROAMING
one keeps its parked rectangle, and it takes its next head, here a GOTO. A camera waiting for floor counts the tick, and ends FLOOR_TIMEOUT at its
limit; where ROAMING cameras end their moves at the tick, each in ascending number gives back its floor, and the cameras that wait then are tried in
their order (log 22: the model's order of a tick's steps). A write-out is formed for each enabled camera from the rotation pointer on, as it stood
before its advance at this tick (log 34: the model's choice). A missed tick moves no camera, counts up to 255, and sets FRAME_MISSED (R33 to R35,
R38, R56, R57, R59, R107, R109, R110, R122, R125, R127 to R129, R133, R141, R170). -/
def Obligations.TimerExpiryIsATick : Prop :=
  ∀ (s : State) (due : Nat), s.startup = .running → HostWaits s → s.timer.nextExpiry = some due →
    ∃ t, exec .intervalTimerExpiry s = .next t ∧ SameMemory s t ∧ Ticked s t ∧
      (s.timer.sync ≠ .locked →
        t.timer =
          { s.timer with
            frame := s.timer.frame + 1, lastTick := due, nextExpiry := some (due + s.timer.tint), missed := t.timer.missed }) ∧
      (s.timer.sync = .locked → t.stat.flags &&& flagSyncLost = flagSyncLost ∧
        t.timer =
          { s.timer with
            frame := s.timer.frame + 1, lastTick := due, nextExpiry := some (due + s.timer.tint), qualify := 0, sync := .holdover
            missed := t.timer.missed }) ∧
      (s.timer.sync ≠ .locked → (∀ c : Cam, inWaitingSet (s.cam c) = false) →
        (s.setp.writeOuts = [] → (∀ c : Cam, ¬CompletesAtTick (s.cam c) ∧ ¬RestsAtTick (s.cam c)) →
          Settled
            { s with
              timer := t.timer, cams := Vector.ofFn fun c => movedAtTick (s.cam c)
              setp := { s.setp with writeOuts := t.setp.writeOuts, pointer := s.setp.pointer + 1 }
              stat := { s.stat with count := t.stat.count } } t) ∧
        (s.setp.writeOuts ≠ [] →
          Settled
            { s with
              timer := t.timer
              stat := { s.stat with count := t.stat.count, flags := s.stat.flags ||| flagFrameMissed } } t))

/-- An edge of REF in the selected direction in HOUSE mode raises the divider count, and the D-th is a divided REF point; any other edge is not
taken. In LOCKED the point is a tick and restarts the timer with the loss time. In SEEKING and HOLDOVER the interval is judged: a good one raises
the qualify count to at most 8, any other clears it; at 8 the timer is restarted with the loss time, and where the last tick is at least Tint/2 back
the point is a tick and locks. A tick serves or misses every camera as the timer's does, its write-outs taken from the rotation pointer as it stood
before its advance (log 34: the model's choice), its floor steps in ascending camera number (log 22) (R121, R123, R124, R127 to R129). -/
def Obligations.RefEdgeIsJudged : Prop :=
  ∀ (s : State) (falling : Bool) (now : Nat), s.startup = .running → HostWaits s →
    ∃ t, exec (.refEdge falling now) s = .next t ∧ SameMemory s t ∧
      (s.timer.mode = .internal ∨ falling ≠ s.timer.falling → Settled s t) ∧
      (s.timer.mode = .house → falling = s.timer.falling →
        (s.timer.divCount + 1 < s.timer.divider →
          Settled { s with timer := { s.timer with divCount := s.timer.divCount + 1 } } t) ∧
        (s.timer.divider ≤ s.timer.divCount + 1 →
          (s.timer.sync = .locked →
            Ticked s t ∧
            t.timer =
              { s.timer with
                divCount := 0, lastPoint := some now, nextExpiry := some (now + (s.timer.tint + s.timer.tint / 4))
                frame := s.timer.frame + 1, lastTick := now, missed := t.timer.missed }) ∧
          (s.timer.sync = .seeking ∨ s.timer.sync = .holdover →
            ∀ q : Nat,
              q = (if (∃ p, s.timer.lastPoint = some p ∧ p ≤ now ∧ s.timer.tint - s.timer.tint / 8 ≤ now - p ∧
                  now - p ≤ s.timer.tint + s.timer.tint / 8) then Nat.min 8 (s.timer.qualify + 1) else 0) →
              (q ≠ 8 → Settled { s with timer := { s.timer with divCount := 0, lastPoint := some now, qualify := q } } t) ∧
              (q = 8 → now - s.timer.lastTick < s.timer.tint / 2 →
                Settled
                  { s with
                    timer :=
                      { s.timer with
                        divCount := 0, lastPoint := some now, qualify := 8
                        nextExpiry := some (now + (s.timer.tint + s.timer.tint / 4)) } } t) ∧
              (q = 8 → s.timer.tint / 2 ≤ now - s.timer.lastTick →
                Ticked s t ∧
                t.timer =
                  { s.timer with
                    divCount := 0, lastPoint := some now, qualify := 8, sync := .locked
                    nextExpiry := some (now + (s.timer.tint + s.timer.tint / 4)), frame := s.timer.frame + 1, lastTick := now
                    missed := t.timer.missed } ∧
                (s.timer.sync = .holdover → t.stat.flags &&& flagSyncRegained = flagSyncRegained)))))

/-- At the tick that brings a waiting camera's count to its limit, its cue ends FLOOR_TIMEOUT, the held rectangle stands, and the camera is
IDLE. When the tick count reaches the status interval it returns to 0, and the sync group and the records of the cameras in MOVING, HALTING and
DIRECT are due; the port being held, none of them is taken up at once (R109, R170; logs 11 and 12: each row is its block's share of that
tick). -/
def Obligations.WaitLimitAndStatusInterval : Prop :=
  (∀ (s : State) (c : Cam) (q : Cue), HostWaits s → inWaitingSet (s.cam c) = true → (s.cam c).cfg.floorLimit ≠ 0 →
     (s.cam c).cfg.floorLimit ≤ 65535 → (s.cam c).waitCount + 1 = (s.cam c).cfg.floorLimit → (s.cam c).active = some q →
     (s.cam c).queue = [] →
     ∃ t, exec (.floorTimeout c) s = .next t ∧ SameMemory s t ∧
       Settled
         { withCam c (cueEnded q .floorTimeout 0 (s.cam c)) s with
           stat := { s.stat with flags := s.stat.flags ||| flagCueResult ||| flagCueRefused } } t) ∧
  (∀ s : State, s.startup = .running → HostWaits s → s.stat.count + 1 = s.stat.interval →
     ∃ t, exec .statusInterval s = .next t ∧ SameMemory s t ∧ Settled { s with stat := { s.stat with count := 0 } } t ∧
       (s.port.cur.isSome = true → t.stat.syncDue = true ∧
         ∀ c : Cam, (s.cam c).state = .moving ∨ (s.cam c).state = .halting ∨ (s.cam c).state = .direct → t.stat.recordDue[c] = true))

/-! Lines -/

/-- A change of the on-air level of a tally line sets TALLY_EDGE when its edge report names it, and reaches each enabled camera of the line
by its state: outside WAITING the on-air state follows and the rate target of a move is formed again; in WAITING, going on air adds TALLY when
the plan is off air, and going off air removes it: the camera waits on while STOP stands, begins its move when no reason is left, and tries its
claim when FLOOR alone is. No camera of another line changes (R144, R145, R61, R51, R54, R106). -/
def Obligations.TallyEventReachesItsCameras : Prop :=
  ∀ (s : State) (n : Fin 8) (high : Bool), s.startup = .running → HostWaits s → s.pins.tally[n] ≠ high →
    ∃ t, exec (.tallyEvent n high) s = .next t ∧ SameMemory s t ∧ t.pins.tally = s.pins.tally.set n high ∧
      ∀ on : Bool, on = (high != s.lines.polarity.getLsbD n.val) → on ≠ s.lines.onAir[n] →
        t.lines = { s.lines with onAir := s.lines.onAir.set n on } ∧ (s.port.cur.isSome = true → t.stat.lineDue = true) ∧
        (s.lines.edges.getLsbD (2 * n.val + (if on then 0 else 1)) = true → t.stat.flags &&& flagTallyEdge = flagTallyEdge) ∧
        ∀ c : Cam,
          (enabledState (s.cam c).state = false ∨ (s.cam c).cfg.tally ≠ some n → t.cam c = s.cam c) ∧
          (enabledState (s.cam c).state = true → (s.cam c).cfg.tally = some n →
            ((s.cam c).state ≠ .waiting → movingState (s.cam c).state = false → t.cam c = { s.cam c with onAir := on }) ∧
            (movingState (s.cam c).state = true →
              t.cam c =
                { s.cam c with
                  onAir := on
                  rt := if (s.cam c).halt then 0
                    else if on then Nat.min (s.cam c).override (s.cam c).plan.c else (s.cam c).override }) ∧
            ((s.cam c).state = .waiting → on = true →
              t.cam c = { s.cam c with onAir := true, waitTally := (s.cam c).waitTally || !(s.cam c).plan.onAir }) ∧
            ((s.cam c).state = .waiting → on = false → (s.cam c).waitTally = false ∨ (s.cam c).waitStop = true →
              t.cam c = { s.cam c with onAir := false, waitTally := false }) ∧
            (∀ q : Cue, (s.cam c).state = .waiting → on = false → (s.cam c).waitTally = true → (s.cam c).waitStop = false →
              (s.cam c).active = some q →
              ((s.cam c).waitFloor = false → t.cam c = moveBegun q { s.cam c with onAir := false, waitTally := false }) ∧
              ∀ (r : Rect) (o : Tried), (s.cam c).waitFloor = true → (s.cam c).claim = some r → GotoNext (s.cam c) →
                (∀ d : Cam, d ≠ c → (s.cam d).cfg.tally = some n → (s.cam d).waitFloor = false) →
                TryGives s.floor.cells c r o →
                t.cam c = cameraTried q r { s.cam c with onAir := false, waitTally := false } o ∧
                t.floor.cells = cellsTried s.floor.cells c r o))

/-- The assertion of the stop line sets STOP_ON and takes each camera by its state: OFFLINE is not reached, ADOPTING records it, MOVING and HALTING
come to rest in HALTED with their rate 0 at once, a HALTING camera with its abandon mark ends its cue ABANDONED, keeps its parked rectangle when it
is ROAMING, and takes its next head, here a GOTO; WAITING adds STOP, and every enabled camera is latched. Each ROAMING camera whose cue so ends
gives back floor, and the cameras that wait then are tried: the cameras take the assertion in ascending number, each to its end, so that only those
of higher number still wait, and one whose move begins is stopped in its turn (log 29: the model's order). The release sets STOP_OFF and changes no
camera (R146, R147, R60, R107, R110). -/
def Obligations.StopLineReachesEveryCamera : Prop :=
  (∀ s : State, s.startup = .running → HostWaits s → s.pins.stopLow = false → s.lines.stop = false →
    ∃ t, exec .stopAssert s = .next t ∧ SameMemory s t ∧ t.pins.stopLow = true ∧ t.lines = { s.lines with stop := true } ∧
      t.stat.flags &&& flagStopOn = flagStopOn ∧ (s.port.cur.isSome = true → t.stat.lineDue = true) ∧
      (∀ (rounds : List ExamRound) (h : Grid Cell), (∀ d : Cam, StopEndsClaim (s.cam d) ↔ ∃ r ∈ rounds, r.cam = d) →
        rounds.Pairwise (·.cam < ·.cam) → (∀ d : Cam, StopEndsClaim (s.cam d) → GotoNext (s.cam d)) → TriesOf s rounds →
        RoundsGive s.floor
          (fun d => parkedRect s.floor (s.cam d).cfg.margin (s.cam d).setpoints[floorX] (s.cam d).setpoints[floorY])
          (fun d x => inWaitingSet (s.cam x) = true ∧ d < x) [] s.floor.cells rounds h →
        t.floor.cells = h ∧
        (∀ r ∈ rounds, ∀ e ∈ r.tries, e.outcome ≠ .denied →
          t.cam e.cam = stopTaken (cameraTried e.cue e.claim (s.cam e.cam) e.outcome)) ∧
        ∀ x : Cam, inWaitingSet (s.cam x) = true → DeniedIn rounds x → t.cam x = { s.cam x with stopLatch := true, waitStop := true }) ∧
      ∀ c : Cam,
        ((s.cam c).state = .offline → t.cam c = s.cam c) ∧
        (∀ ad : Adoption, (s.cam c).state = .adopting → (s.cam c).adoption = some ad →
          t.cam c = { s.cam c with adoption := some { ad with stopSeen := true } }) ∧
        ((s.cam c).state = .idle ∨ (s.cam c).state = .fetching ∨ (s.cam c).state = .halted ∨ (s.cam c).state = .direct →
          t.cam c = { s.cam c with stopLatch := true }) ∧
        ((s.cam c).state = .waiting → inWaitingSet (s.cam c) = false ∨ (∀ d : Cam, d < c → ¬StopEndsClaim (s.cam d)) →
          t.cam c = { s.cam c with stopLatch := true, waitStop := true }) ∧
        ((s.cam c).state = .moving ∨ (s.cam c).state = .halting ∧ (s.cam c).abandon = false →
          t.cam c = { s.cam c with stopLatch := true, halt := true, rate := 0, rt := 0, state := .halted }) ∧
        (∀ q : Cue, (s.cam c).state = .halting → (s.cam c).abandon = true → (s.cam c).active = some q → GotoNext (s.cam c) →
          t.cam c =
            moveEnded s.floor q .abandoned 0 (s.cam c).setpoints { s.cam c with stopLatch := true, rate := 0, rt := 0 } ∧
          ((s.cam c).cfg.kind = some .roaming → (∀ d : Cam, d ≠ c → ¬StopEndsClaim (s.cam d) ∧ inWaitingSet (s.cam d) = false) →
            t.floor.cells =
              cellsGivenBack s.floor c
                (parkedRect s.floor (s.cam c).cfg.margin (s.cam c).setpoints[floorX] (s.cam c).setpoints[floorY])))) ∧
  (∀ s : State, s.startup = .running → HostWaits s → s.pins.stopLow = true → s.lines.stop = true →
    ∃ t, exec .stopRelease s = .next t ∧ SameMemory s t ∧
      Settled
        { s with
          pins := { s.pins with stopLow := false }, lines := { s.lines with stop := false }
          stat := { s.stat with flags := s.stat.flags ||| flagStopOff } } t)

/-! The arithmetic of a move -/

/-- The planner's ramp and scale: R is the smaller of Rreq and floor(N/2), so that the ramps never overlap; N' = 256 N, R' = 256 R; K is
2 R' (N' - R') for R above 0 and N' for R 0; N' lies in 256..16,776,960 and K in 256..below 2^47 (R23). -/
def Obligations.PlanIsScaled : Prop :=
  ∀ (cfg : CamConfig) (o : Positions) (req : MoveRequest) (pl : Plan), planMove cfg o req = .plan pl →
    pl.r = Nat.min req.ramp (pl.n / 2) ∧ 2 * pl.r ≤ pl.n ∧ (pl.n = 1 → pl.r = 0) ∧ pl.n' = 256 * pl.n ∧ pl.r' = 256 * pl.r ∧
    (0 < pl.r → pl.k = 2 * pl.r' * (pl.n' - pl.r')) ∧ (pl.r = 0 → pl.k = pl.n') ∧ 256 ≤ pl.n' ∧ pl.n' ≤ 16776960 ∧ 256 ≤ pl.k ∧
    pl.k < 2 ^ 47

/-- The numerator of a plan follows the pieces of R26, which agree where they meet; it is 0 at P = 0 and K at P = N', it never decreases as P
rises, and it lies in 0..K. A serviced tick forms it from P after advancing P (R26). -/
def Obligations.NumeratorFollowsProgress : Prop :=
  ∀ (cfg : CamConfig) (o : Positions) (req : MoveRequest) (pl : Plan), planMove cfg o req = .plan pl →
    (∀ p : Nat, p ≤ pl.n' →
      (pl.r = 0 → moveNum pl p = p) ∧ (0 < pl.r → p ≤ pl.r' → moveNum pl p = p ^ 2) ∧
      (0 < pl.r → pl.r' < p → p ≤ pl.n' - pl.r' → moveNum pl p = pl.r' * (2 * p - pl.r')) ∧
      (0 < pl.r → pl.n' - pl.r' < p → moveNum pl p = pl.k - (pl.n' - p) ^ 2) ∧ moveNum pl p ≤ pl.k) ∧
    moveNum pl 0 = 0 ∧ moveNum pl pl.n' = pl.k ∧ (∀ p p' : Nat, p ≤ p' → p' ≤ pl.n' → moveNum pl p ≤ moveNum pl p') ∧
    (0 < pl.r → pl.r' ^ 2 = pl.r' * (2 * pl.r' - pl.r')) ∧
    (0 < pl.r → pl.k - (pl.n' - (pl.n' - pl.r')) ^ 2 = pl.r' * (2 * pl.n' - 3 * pl.r')) ∧
    (2 * pl.r = pl.n → pl.n' - pl.r' = pl.r') ∧
    ∀ k : Camera, (advanceMove k).setpoints = movePositions k.plan (advanceMove k).p ∧
      ∀ a : Axis, (advanceMove k).setpoints[a] =
        axisPosition k.plan.origin[a] k.plan.delta[a] (moveNum k.plan (advanceMove k).p) k.plan.k

/-- Every setpoint of a move is its origin plus the travel's share floor(|travel| num / K), taken toward the target; it lies between its origin
and its target, is its origin at P = 0 and its target at P = N', and moves only toward the target as P rises. Q is floor(65536 num / K), runs
from 0 to 65536 and never decreases (R27, R28). -/
def Obligations.MoveStaysOnItsWay : Prop :=
  ∀ (cfg : CamConfig) (o : Positions) (req : MoveRequest) (pl : Plan) (a : Axis), planMove cfg o req = .plan pl →
    (∀ p : Nat,
      (0 ≤ pl.delta[a] → (movePositions pl p)[a] = pl.origin[a] + pl.delta[a].natAbs * moveNum pl p / pl.k) ∧
      (pl.delta[a] < 0 → (movePositions pl p)[a] = pl.origin[a] - pl.delta[a].natAbs * moveNum pl p / pl.k) ∧
      moveQ pl p = 65536 * moveNum pl p / pl.k) ∧
    (movePositions pl 0)[a] = pl.origin[a] ∧ (movePositions pl pl.n')[a] = pl.target[a] ∧ moveQ pl 0 = 0 ∧ moveQ pl pl.n' = 65536 ∧
    ∀ p p' : Nat, p ≤ p' → p' ≤ pl.n' →
      moveQ pl p ≤ moveQ pl p' ∧
      (pl.origin[a] ≤ pl.target[a] →
        pl.origin[a] ≤ (movePositions pl p)[a] ∧ (movePositions pl p)[a] ≤ (movePositions pl p')[a] ∧
          (movePositions pl p')[a] ≤ pl.target[a]) ∧
      (pl.target[a] ≤ pl.origin[a] →
        pl.target[a] ≤ (movePositions pl p')[a] ∧ (movePositions pl p')[a] ≤ (movePositions pl p)[a] ∧
          (movePositions pl p)[a] ≤ pl.origin[a])

/-! Invariants of every step -/

/-- Every step keeps the canonical form of memory and the ranges of the counters and rates (R29, R31, R109, R129, R137, R155; log 1 for the
form). -/
def Obligations.StepKeepsFormAndRanges : Prop :=
  ∀ s t : State, step s = .next t → (MemoryForm s → MemoryForm t) ∧ (RangesHold s → RangesHold t)

/-- Every step keeps the companions of each camera's state fitting it: the marks, the wait reasons, the active cue, the direct targets, the
adoption, the queue and the return stack (R41, R42, R43, R62, R72, R73, R96). -/
def Obligations.StepKeepsCompanions : Prop := ∀ s t : State, step s = .next t → CompanionsHold s → CompanionsHold t

/-- Every step keeps each enabled camera's present axes within their soft limits, with its plan and its direct targets (R6, R136, R141). -/
def Obligations.StepKeepsLimits : Prop :=
  ∀ s t : State, step s = .next t → CompanionsHold s → LimitsHold s → LimitsHold t

/-- Every step keeps the laws of the floor: the BLOCKED cells are those of the ACTIVE zones, and cells are HELD only by enabled ROAMING
cameras, which alone hold rectangles and claims (R101, R103, R113). -/
def Obligations.StepKeepsTheFloor : Prop :=
  ∀ s t : State, step s = .next t → CompanionsHold s → (ZonesHold s → ZonesHold t) ∧ (HoldersRoam s → HoldersRoam t)

/-- Every step keeps the law of the held set: a cell is HELD by a camera exactly where it lies in the camera's held rectangle, the rectangle of an
enabled ROAMING camera fits its state, and every such camera holds every cell of the parked rectangle at its setpoints. With it goes that no
camera is in service until the load has ended (R103, R102, R104, R106, R110, R111, R112). -/
def Obligations.StepKeepsTheHeldSet : Prop :=
  ∀ s t : State, step s = .next t → CompanionsHold s → RangesHold s → LimitsHold s → PaceHolds s → HoldersRoam s → HeldSetHolds s →
    HeldSetHolds t ∧
    ∀ (c : Cam) (x y : Fin 32), enabledState (t.cam c).state = true → isRoaming (t.cam c) = true →
      inRect (parkedRect t.floor (t.cam c).cfg.margin (t.cam c).setpoints[floorX] (t.cam c).setpoints[floorY]) x y = true →
      gridAt t.floor.cells x y = .held c

/-- At one step no present axis of an enabled camera moves by more than its off-air speed, and every step keeps what this rests on: Von at most
Voff, and a planned travel of at most Voff for each frame past the ramp, the setpoints standing where the progress puts them (R39, R7, R22, R27,
R33, R141). -/
def Obligations.StepKeepsPace : Prop :=
  ∀ s t : State, step s = .next t → CompanionsHold s → RangesHold s → LimitsHold s → PaceHolds s →
    PaceHolds t ∧
    ∀ (c : Cam) (a : Axis), enabledState (s.cam c).state = true → enabledState (t.cam c).state = true →
      inMask (s.cam c).cfg.mask a = true → ((t.cam c).setpoints[a] - (s.cam c).setpoints[a]).natAbs ≤ (s.cam c).cfg.axes[a].voff

/-- Every change of what the Status Writer reports leaves its item due, or taken up at this very event: flags newly set, the capture record, the
line state, the sync state, the counters, the probe result, a zone's status, a camera's record as R169 lists it, and a cell; that a change of the
frame counter, of plan values or of setpoints alone does not count, even in a group under way, is the model's choice (log 38) (R165, R167, R120,
R129, R155, R156, R117, R118, R143, R168, R169). -/
def Obligations.ChangesAreMarkedDue : Prop :=
  ∀ s t : State, step s = .next t → ∀ i : StatusItem, ReportChanged s t i → itemDue i t.stat = true ∨ TakenUp i t

/-- After every step nothing waits for what is free: no presented access waits while the part could decode it, no request for a free Shot
Engine, and no requester for a free port (R151, R87, R161). -/
def Obligations.StepLeavesNothingIdle : Prop := ∀ s t : State, step s = .next t → NothingIdle s → NothingIdle t

/-- The state right after RESETn meets every invariant. -/
def Obligations.ResetMeetsTheInvariants : Prop :=
  MemoryForm State.reset ∧ RangesHold State.reset ∧ CompanionsHold State.reset ∧ LimitsHold State.reset ∧ PaceHolds State.reset ∧
  ZonesHold State.reset ∧ HeldSetHolds State.reset ∧ HoldersRoam State.reset ∧ NothingIdle State.reset
end

