-- ==== Sys2Proof/Laws/State.lean ====
section
/-! SUPPORT. For each named update of the state, what every field of the state reads after it; all true by rfl. -/

namespace Sys2Proof.Machine

variable (s : State)

@[simp] theorem State.write_pending (a : Addr) (w : MWord) : (s.write a w).pending = s.pending := rfl
@[simp] theorem State.write_startup (a : Addr) (w : MWord) : (s.write a w).startup = s.startup := rfl
@[simp] theorem State.write_loadEntry (a : Addr) (w : MWord) : (s.write a w).loadEntry = s.loadEntry := rfl
@[simp] theorem State.write_base (a : Addr) (w : MWord) : (s.write a w).base = s.base := rfl
@[simp] theorem State.write_pins (a : Addr) (w : MWord) : (s.write a w).pins = s.pins := rfl
@[simp] theorem State.write_bus (a : Addr) (w : MWord) : (s.write a w).bus = s.bus := rfl
@[simp] theorem State.write_fences (a : Addr) (w : MWord) : (s.write a w).fences = s.fences := rfl
@[simp] theorem State.write_port (a : Addr) (w : MWord) : (s.write a w).port = s.port := rfl
@[simp] theorem State.write_timer (a : Addr) (w : MWord) : (s.write a w).timer = s.timer := rfl
@[simp] theorem State.write_lines (a : Addr) (w : MWord) : (s.write a w).lines = s.lines := rfl
@[simp] theorem State.write_cams (a : Addr) (w : MWord) : (s.write a w).cams = s.cams := rfl
@[simp] theorem State.write_floor (a : Addr) (w : MWord) : (s.write a w).floor = s.floor := rfl
@[simp] theorem State.write_shot (a : Addr) (w : MWord) : (s.write a w).shot = s.shot := rfl
@[simp] theorem State.write_setp (a : Addr) (w : MWord) : (s.write a w).setp = s.setp := rfl
@[simp] theorem State.write_adoptQueue (a : Addr) (w : MWord) : (s.write a w).adoptQueue = s.adoptQueue := rfl
@[simp] theorem State.write_stat (a : Addr) (w : MWord) : (s.write a w).stat = s.stat := rfl

@[simp] theorem State.setCam_pending (c : Cam) (k : Camera) : (s.setCam c k).pending = s.pending := rfl
@[simp] theorem State.setCam_startup (c : Cam) (k : Camera) : (s.setCam c k).startup = s.startup := rfl
@[simp] theorem State.setCam_loadEntry (c : Cam) (k : Camera) : (s.setCam c k).loadEntry = s.loadEntry := rfl
@[simp] theorem State.setCam_base (c : Cam) (k : Camera) : (s.setCam c k).base = s.base := rfl
@[simp] theorem State.setCam_mem (c : Cam) (k : Camera) : (s.setCam c k).mem = s.mem := rfl
@[simp] theorem State.setCam_pins (c : Cam) (k : Camera) : (s.setCam c k).pins = s.pins := rfl
@[simp] theorem State.setCam_bus (c : Cam) (k : Camera) : (s.setCam c k).bus = s.bus := rfl
@[simp] theorem State.setCam_fences (c : Cam) (k : Camera) : (s.setCam c k).fences = s.fences := rfl
@[simp] theorem State.setCam_port (c : Cam) (k : Camera) : (s.setCam c k).port = s.port := rfl
@[simp] theorem State.setCam_timer (c : Cam) (k : Camera) : (s.setCam c k).timer = s.timer := rfl
@[simp] theorem State.setCam_lines (c : Cam) (k : Camera) : (s.setCam c k).lines = s.lines := rfl
@[simp] theorem State.setCam_floor (c : Cam) (k : Camera) : (s.setCam c k).floor = s.floor := rfl
@[simp] theorem State.setCam_shot (c : Cam) (k : Camera) : (s.setCam c k).shot = s.shot := rfl
@[simp] theorem State.setCam_setp (c : Cam) (k : Camera) : (s.setCam c k).setp = s.setp := rfl
@[simp] theorem State.setCam_adoptQueue (c : Cam) (k : Camera) : (s.setCam c k).adoptQueue = s.adoptQueue := rfl
@[simp] theorem State.setCam_stat (c : Cam) (k : Camera) : (s.setCam c k).stat = s.stat := rfl

@[simp] theorem State.modCam_pending (c : Cam) (f : Camera → Camera) : (s.modCam c f).pending = s.pending := rfl
@[simp] theorem State.modCam_startup (c : Cam) (f : Camera → Camera) : (s.modCam c f).startup = s.startup := rfl
@[simp] theorem State.modCam_loadEntry (c : Cam) (f : Camera → Camera) : (s.modCam c f).loadEntry = s.loadEntry := rfl
@[simp] theorem State.modCam_base (c : Cam) (f : Camera → Camera) : (s.modCam c f).base = s.base := rfl
@[simp] theorem State.modCam_mem (c : Cam) (f : Camera → Camera) : (s.modCam c f).mem = s.mem := rfl
@[simp] theorem State.modCam_pins (c : Cam) (f : Camera → Camera) : (s.modCam c f).pins = s.pins := rfl
@[simp] theorem State.modCam_bus (c : Cam) (f : Camera → Camera) : (s.modCam c f).bus = s.bus := rfl
@[simp] theorem State.modCam_fences (c : Cam) (f : Camera → Camera) : (s.modCam c f).fences = s.fences := rfl
@[simp] theorem State.modCam_port (c : Cam) (f : Camera → Camera) : (s.modCam c f).port = s.port := rfl
@[simp] theorem State.modCam_timer (c : Cam) (f : Camera → Camera) : (s.modCam c f).timer = s.timer := rfl
@[simp] theorem State.modCam_lines (c : Cam) (f : Camera → Camera) : (s.modCam c f).lines = s.lines := rfl
@[simp] theorem State.modCam_floor (c : Cam) (f : Camera → Camera) : (s.modCam c f).floor = s.floor := rfl
@[simp] theorem State.modCam_shot (c : Cam) (f : Camera → Camera) : (s.modCam c f).shot = s.shot := rfl
@[simp] theorem State.modCam_setp (c : Cam) (f : Camera → Camera) : (s.modCam c f).setp = s.setp := rfl
@[simp] theorem State.modCam_adoptQueue (c : Cam) (f : Camera → Camera) : (s.modCam c f).adoptQueue = s.adoptQueue := rfl
@[simp] theorem State.modCam_stat (c : Cam) (f : Camera → Camera) : (s.modCam c f).stat = s.stat := rfl

@[simp] theorem State.modStat_pending (f : StatusWriter → StatusWriter) : (s.modStat f).pending = s.pending := rfl
@[simp] theorem State.modStat_startup (f : StatusWriter → StatusWriter) : (s.modStat f).startup = s.startup := rfl
@[simp] theorem State.modStat_loadEntry (f : StatusWriter → StatusWriter) : (s.modStat f).loadEntry = s.loadEntry := rfl
@[simp] theorem State.modStat_base (f : StatusWriter → StatusWriter) : (s.modStat f).base = s.base := rfl
@[simp] theorem State.modStat_mem (f : StatusWriter → StatusWriter) : (s.modStat f).mem = s.mem := rfl
@[simp] theorem State.modStat_pins (f : StatusWriter → StatusWriter) : (s.modStat f).pins = s.pins := rfl
@[simp] theorem State.modStat_bus (f : StatusWriter → StatusWriter) : (s.modStat f).bus = s.bus := rfl
@[simp] theorem State.modStat_fences (f : StatusWriter → StatusWriter) : (s.modStat f).fences = s.fences := rfl
@[simp] theorem State.modStat_port (f : StatusWriter → StatusWriter) : (s.modStat f).port = s.port := rfl
@[simp] theorem State.modStat_timer (f : StatusWriter → StatusWriter) : (s.modStat f).timer = s.timer := rfl
@[simp] theorem State.modStat_lines (f : StatusWriter → StatusWriter) : (s.modStat f).lines = s.lines := rfl
@[simp] theorem State.modStat_cams (f : StatusWriter → StatusWriter) : (s.modStat f).cams = s.cams := rfl
@[simp] theorem State.modStat_floor (f : StatusWriter → StatusWriter) : (s.modStat f).floor = s.floor := rfl
@[simp] theorem State.modStat_shot (f : StatusWriter → StatusWriter) : (s.modStat f).shot = s.shot := rfl
@[simp] theorem State.modStat_setp (f : StatusWriter → StatusWriter) : (s.modStat f).setp = s.setp := rfl
@[simp] theorem State.modStat_adoptQueue (f : StatusWriter → StatusWriter) : (s.modStat f).adoptQueue = s.adoptQueue := rfl

@[simp] theorem State.flag_pending (f : BitVec 12) : (s.flag f).pending = s.pending := rfl
@[simp] theorem State.flag_startup (f : BitVec 12) : (s.flag f).startup = s.startup := rfl
@[simp] theorem State.flag_loadEntry (f : BitVec 12) : (s.flag f).loadEntry = s.loadEntry := rfl
@[simp] theorem State.flag_base (f : BitVec 12) : (s.flag f).base = s.base := rfl
@[simp] theorem State.flag_mem (f : BitVec 12) : (s.flag f).mem = s.mem := rfl
@[simp] theorem State.flag_pins (f : BitVec 12) : (s.flag f).pins = s.pins := rfl
@[simp] theorem State.flag_bus (f : BitVec 12) : (s.flag f).bus = s.bus := rfl
@[simp] theorem State.flag_fences (f : BitVec 12) : (s.flag f).fences = s.fences := rfl
@[simp] theorem State.flag_port (f : BitVec 12) : (s.flag f).port = s.port := rfl
@[simp] theorem State.flag_timer (f : BitVec 12) : (s.flag f).timer = s.timer := rfl
@[simp] theorem State.flag_lines (f : BitVec 12) : (s.flag f).lines = s.lines := rfl
@[simp] theorem State.flag_cams (f : BitVec 12) : (s.flag f).cams = s.cams := rfl
@[simp] theorem State.flag_floor (f : BitVec 12) : (s.flag f).floor = s.floor := rfl
@[simp] theorem State.flag_shot (f : BitVec 12) : (s.flag f).shot = s.shot := rfl
@[simp] theorem State.flag_setp (f : BitVec 12) : (s.flag f).setp = s.setp := rfl
@[simp] theorem State.flag_adoptQueue (f : BitVec 12) : (s.flag f).adoptQueue = s.adoptQueue := rfl

@[simp] theorem State.error_pending (e : ErrClass) (o : Bool) (a : Addr) (w : MWord) : (s.error e o a w).pending = s.pending := rfl
@[simp] theorem State.error_startup (e : ErrClass) (o : Bool) (a : Addr) (w : MWord) : (s.error e o a w).startup = s.startup := rfl
@[simp] theorem State.error_loadEntry (e : ErrClass) (o : Bool) (a : Addr) (w : MWord) : (s.error e o a w).loadEntry = s.loadEntry := rfl
@[simp] theorem State.error_base (e : ErrClass) (o : Bool) (a : Addr) (w : MWord) : (s.error e o a w).base = s.base := rfl
@[simp] theorem State.error_mem (e : ErrClass) (o : Bool) (a : Addr) (w : MWord) : (s.error e o a w).mem = s.mem := rfl
@[simp] theorem State.error_pins (e : ErrClass) (o : Bool) (a : Addr) (w : MWord) : (s.error e o a w).pins = s.pins := rfl
@[simp] theorem State.error_bus (e : ErrClass) (o : Bool) (a : Addr) (w : MWord) : (s.error e o a w).bus = s.bus := rfl
@[simp] theorem State.error_fences (e : ErrClass) (o : Bool) (a : Addr) (w : MWord) : (s.error e o a w).fences = s.fences := rfl
@[simp] theorem State.error_port (e : ErrClass) (o : Bool) (a : Addr) (w : MWord) : (s.error e o a w).port = s.port := rfl
@[simp] theorem State.error_timer (e : ErrClass) (o : Bool) (a : Addr) (w : MWord) : (s.error e o a w).timer = s.timer := rfl
@[simp] theorem State.error_lines (e : ErrClass) (o : Bool) (a : Addr) (w : MWord) : (s.error e o a w).lines = s.lines := rfl
@[simp] theorem State.error_cams (e : ErrClass) (o : Bool) (a : Addr) (w : MWord) : (s.error e o a w).cams = s.cams := rfl
@[simp] theorem State.error_floor (e : ErrClass) (o : Bool) (a : Addr) (w : MWord) : (s.error e o a w).floor = s.floor := rfl
@[simp] theorem State.error_shot (e : ErrClass) (o : Bool) (a : Addr) (w : MWord) : (s.error e o a w).shot = s.shot := rfl
@[simp] theorem State.error_setp (e : ErrClass) (o : Bool) (a : Addr) (w : MWord) : (s.error e o a w).setp = s.setp := rfl
@[simp] theorem State.error_adoptQueue (e : ErrClass) (o : Bool) (a : Addr) (w : MWord) : (s.error e o a w).adoptQueue = s.adoptQueue := rfl

@[simp] theorem State.modBus_pending (f : HostBus → HostBus) : (s.modBus f).pending = s.pending := rfl
@[simp] theorem State.modBus_startup (f : HostBus → HostBus) : (s.modBus f).startup = s.startup := rfl
@[simp] theorem State.modBus_loadEntry (f : HostBus → HostBus) : (s.modBus f).loadEntry = s.loadEntry := rfl
@[simp] theorem State.modBus_base (f : HostBus → HostBus) : (s.modBus f).base = s.base := rfl
@[simp] theorem State.modBus_mem (f : HostBus → HostBus) : (s.modBus f).mem = s.mem := rfl
@[simp] theorem State.modBus_pins (f : HostBus → HostBus) : (s.modBus f).pins = s.pins := rfl
@[simp] theorem State.modBus_fences (f : HostBus → HostBus) : (s.modBus f).fences = s.fences := rfl
@[simp] theorem State.modBus_port (f : HostBus → HostBus) : (s.modBus f).port = s.port := rfl
@[simp] theorem State.modBus_timer (f : HostBus → HostBus) : (s.modBus f).timer = s.timer := rfl
@[simp] theorem State.modBus_lines (f : HostBus → HostBus) : (s.modBus f).lines = s.lines := rfl
@[simp] theorem State.modBus_cams (f : HostBus → HostBus) : (s.modBus f).cams = s.cams := rfl
@[simp] theorem State.modBus_floor (f : HostBus → HostBus) : (s.modBus f).floor = s.floor := rfl
@[simp] theorem State.modBus_shot (f : HostBus → HostBus) : (s.modBus f).shot = s.shot := rfl
@[simp] theorem State.modBus_setp (f : HostBus → HostBus) : (s.modBus f).setp = s.setp := rfl
@[simp] theorem State.modBus_adoptQueue (f : HostBus → HostBus) : (s.modBus f).adoptQueue = s.adoptQueue := rfl
@[simp] theorem State.modBus_stat (f : HostBus → HostBus) : (s.modBus f).stat = s.stat := rfl

@[simp] theorem State.endHost_pending (a : Addr) (b e : Bool) (w : MWord) : (s.endHost a b e w).pending = s.pending := rfl
@[simp] theorem State.endHost_startup (a : Addr) (b e : Bool) (w : MWord) : (s.endHost a b e w).startup = s.startup := rfl
@[simp] theorem State.endHost_loadEntry (a : Addr) (b e : Bool) (w : MWord) : (s.endHost a b e w).loadEntry = s.loadEntry := rfl
@[simp] theorem State.endHost_base (a : Addr) (b e : Bool) (w : MWord) : (s.endHost a b e w).base = s.base := rfl
@[simp] theorem State.endHost_mem (a : Addr) (b e : Bool) (w : MWord) : (s.endHost a b e w).mem = s.mem := rfl
@[simp] theorem State.endHost_pins (a : Addr) (b e : Bool) (w : MWord) : (s.endHost a b e w).pins = s.pins := rfl
@[simp] theorem State.endHost_fences (a : Addr) (b e : Bool) (w : MWord) : (s.endHost a b e w).fences = s.fences := rfl
@[simp] theorem State.endHost_port (a : Addr) (b e : Bool) (w : MWord) : (s.endHost a b e w).port = s.port := rfl
@[simp] theorem State.endHost_timer (a : Addr) (b e : Bool) (w : MWord) : (s.endHost a b e w).timer = s.timer := rfl
@[simp] theorem State.endHost_lines (a : Addr) (b e : Bool) (w : MWord) : (s.endHost a b e w).lines = s.lines := rfl
@[simp] theorem State.endHost_cams (a : Addr) (b e : Bool) (w : MWord) : (s.endHost a b e w).cams = s.cams := rfl
@[simp] theorem State.endHost_floor (a : Addr) (b e : Bool) (w : MWord) : (s.endHost a b e w).floor = s.floor := rfl
@[simp] theorem State.endHost_shot (a : Addr) (b e : Bool) (w : MWord) : (s.endHost a b e w).shot = s.shot := rfl
@[simp] theorem State.endHost_setp (a : Addr) (b e : Bool) (w : MWord) : (s.endHost a b e w).setp = s.setp := rfl
@[simp] theorem State.endHost_adoptQueue (a : Addr) (b e : Bool) (w : MWord) : (s.endHost a b e w).adoptQueue = s.adoptQueue := rfl
@[simp] theorem State.endHost_stat (a : Addr) (b e : Bool) (w : MWord) : (s.endHost a b e w).stat = s.stat := rfl

@[simp] theorem State.modShot_pending (f : ShotEngine → ShotEngine) : (s.modShot f).pending = s.pending := rfl
@[simp] theorem State.modShot_startup (f : ShotEngine → ShotEngine) : (s.modShot f).startup = s.startup := rfl
@[simp] theorem State.modShot_loadEntry (f : ShotEngine → ShotEngine) : (s.modShot f).loadEntry = s.loadEntry := rfl
@[simp] theorem State.modShot_base (f : ShotEngine → ShotEngine) : (s.modShot f).base = s.base := rfl
@[simp] theorem State.modShot_mem (f : ShotEngine → ShotEngine) : (s.modShot f).mem = s.mem := rfl
@[simp] theorem State.modShot_pins (f : ShotEngine → ShotEngine) : (s.modShot f).pins = s.pins := rfl
@[simp] theorem State.modShot_bus (f : ShotEngine → ShotEngine) : (s.modShot f).bus = s.bus := rfl
@[simp] theorem State.modShot_fences (f : ShotEngine → ShotEngine) : (s.modShot f).fences = s.fences := rfl
@[simp] theorem State.modShot_port (f : ShotEngine → ShotEngine) : (s.modShot f).port = s.port := rfl
@[simp] theorem State.modShot_timer (f : ShotEngine → ShotEngine) : (s.modShot f).timer = s.timer := rfl
@[simp] theorem State.modShot_lines (f : ShotEngine → ShotEngine) : (s.modShot f).lines = s.lines := rfl
@[simp] theorem State.modShot_cams (f : ShotEngine → ShotEngine) : (s.modShot f).cams = s.cams := rfl
@[simp] theorem State.modShot_floor (f : ShotEngine → ShotEngine) : (s.modShot f).floor = s.floor := rfl
@[simp] theorem State.modShot_setp (f : ShotEngine → ShotEngine) : (s.modShot f).setp = s.setp := rfl
@[simp] theorem State.modShot_adoptQueue (f : ShotEngine → ShotEngine) : (s.modShot f).adoptQueue = s.adoptQueue := rfl
@[simp] theorem State.modShot_stat (f : ShotEngine → ShotEngine) : (s.modShot f).stat = s.stat := rfl

@[simp] theorem State.modTimer_pending (f : FrameTimer → FrameTimer) : (s.modTimer f).pending = s.pending := rfl
@[simp] theorem State.modTimer_startup (f : FrameTimer → FrameTimer) : (s.modTimer f).startup = s.startup := rfl
@[simp] theorem State.modTimer_loadEntry (f : FrameTimer → FrameTimer) : (s.modTimer f).loadEntry = s.loadEntry := rfl
@[simp] theorem State.modTimer_base (f : FrameTimer → FrameTimer) : (s.modTimer f).base = s.base := rfl
@[simp] theorem State.modTimer_mem (f : FrameTimer → FrameTimer) : (s.modTimer f).mem = s.mem := rfl
@[simp] theorem State.modTimer_pins (f : FrameTimer → FrameTimer) : (s.modTimer f).pins = s.pins := rfl
@[simp] theorem State.modTimer_bus (f : FrameTimer → FrameTimer) : (s.modTimer f).bus = s.bus := rfl
@[simp] theorem State.modTimer_fences (f : FrameTimer → FrameTimer) : (s.modTimer f).fences = s.fences := rfl
@[simp] theorem State.modTimer_port (f : FrameTimer → FrameTimer) : (s.modTimer f).port = s.port := rfl
@[simp] theorem State.modTimer_lines (f : FrameTimer → FrameTimer) : (s.modTimer f).lines = s.lines := rfl
@[simp] theorem State.modTimer_cams (f : FrameTimer → FrameTimer) : (s.modTimer f).cams = s.cams := rfl
@[simp] theorem State.modTimer_floor (f : FrameTimer → FrameTimer) : (s.modTimer f).floor = s.floor := rfl
@[simp] theorem State.modTimer_shot (f : FrameTimer → FrameTimer) : (s.modTimer f).shot = s.shot := rfl
@[simp] theorem State.modTimer_setp (f : FrameTimer → FrameTimer) : (s.modTimer f).setp = s.setp := rfl
@[simp] theorem State.modTimer_adoptQueue (f : FrameTimer → FrameTimer) : (s.modTimer f).adoptQueue = s.adoptQueue := rfl
@[simp] theorem State.modTimer_stat (f : FrameTimer → FrameTimer) : (s.modTimer f).stat = s.stat := rfl

@[simp] theorem State.modZone_pending (z : Fin 16) (f : Zone → Zone) : (s.modZone z f).pending = s.pending := rfl
@[simp] theorem State.modZone_startup (z : Fin 16) (f : Zone → Zone) : (s.modZone z f).startup = s.startup := rfl
@[simp] theorem State.modZone_loadEntry (z : Fin 16) (f : Zone → Zone) : (s.modZone z f).loadEntry = s.loadEntry := rfl
@[simp] theorem State.modZone_base (z : Fin 16) (f : Zone → Zone) : (s.modZone z f).base = s.base := rfl
@[simp] theorem State.modZone_mem (z : Fin 16) (f : Zone → Zone) : (s.modZone z f).mem = s.mem := rfl
@[simp] theorem State.modZone_pins (z : Fin 16) (f : Zone → Zone) : (s.modZone z f).pins = s.pins := rfl
@[simp] theorem State.modZone_bus (z : Fin 16) (f : Zone → Zone) : (s.modZone z f).bus = s.bus := rfl
@[simp] theorem State.modZone_fences (z : Fin 16) (f : Zone → Zone) : (s.modZone z f).fences = s.fences := rfl
@[simp] theorem State.modZone_port (z : Fin 16) (f : Zone → Zone) : (s.modZone z f).port = s.port := rfl
@[simp] theorem State.modZone_timer (z : Fin 16) (f : Zone → Zone) : (s.modZone z f).timer = s.timer := rfl
@[simp] theorem State.modZone_lines (z : Fin 16) (f : Zone → Zone) : (s.modZone z f).lines = s.lines := rfl
@[simp] theorem State.modZone_cams (z : Fin 16) (f : Zone → Zone) : (s.modZone z f).cams = s.cams := rfl
@[simp] theorem State.modZone_shot (z : Fin 16) (f : Zone → Zone) : (s.modZone z f).shot = s.shot := rfl
@[simp] theorem State.modZone_setp (z : Fin 16) (f : Zone → Zone) : (s.modZone z f).setp = s.setp := rfl
@[simp] theorem State.modZone_adoptQueue (z : Fin 16) (f : Zone → Zone) : (s.modZone z f).adoptQueue = s.adoptQueue := rfl
@[simp] theorem State.modZone_stat (z : Fin 16) (f : Zone → Zone) : (s.modZone z f).stat = s.stat := rfl

@[simp] theorem State.zoneStatus_pending (z : Fin 16) (st : ZoneStatus) (r : Option Rect) : (s.zoneStatus z st r).pending = s.pending := rfl
@[simp] theorem State.zoneStatus_startup (z : Fin 16) (st : ZoneStatus) (r : Option Rect) : (s.zoneStatus z st r).startup = s.startup := rfl
@[simp] theorem State.zoneStatus_loadEntry (z : Fin 16) (st : ZoneStatus) (r : Option Rect) : (s.zoneStatus z st r).loadEntry = s.loadEntry := rfl
@[simp] theorem State.zoneStatus_base (z : Fin 16) (st : ZoneStatus) (r : Option Rect) : (s.zoneStatus z st r).base = s.base := rfl
@[simp] theorem State.zoneStatus_mem (z : Fin 16) (st : ZoneStatus) (r : Option Rect) : (s.zoneStatus z st r).mem = s.mem := rfl
@[simp] theorem State.zoneStatus_pins (z : Fin 16) (st : ZoneStatus) (r : Option Rect) : (s.zoneStatus z st r).pins = s.pins := rfl
@[simp] theorem State.zoneStatus_bus (z : Fin 16) (st : ZoneStatus) (r : Option Rect) : (s.zoneStatus z st r).bus = s.bus := rfl
@[simp] theorem State.zoneStatus_fences (z : Fin 16) (st : ZoneStatus) (r : Option Rect) : (s.zoneStatus z st r).fences = s.fences := rfl
@[simp] theorem State.zoneStatus_port (z : Fin 16) (st : ZoneStatus) (r : Option Rect) : (s.zoneStatus z st r).port = s.port := rfl
@[simp] theorem State.zoneStatus_timer (z : Fin 16) (st : ZoneStatus) (r : Option Rect) : (s.zoneStatus z st r).timer = s.timer := rfl
@[simp] theorem State.zoneStatus_lines (z : Fin 16) (st : ZoneStatus) (r : Option Rect) : (s.zoneStatus z st r).lines = s.lines := rfl
@[simp] theorem State.zoneStatus_cams (z : Fin 16) (st : ZoneStatus) (r : Option Rect) : (s.zoneStatus z st r).cams = s.cams := rfl
@[simp] theorem State.zoneStatus_shot (z : Fin 16) (st : ZoneStatus) (r : Option Rect) : (s.zoneStatus z st r).shot = s.shot := rfl
@[simp] theorem State.zoneStatus_setp (z : Fin 16) (st : ZoneStatus) (r : Option Rect) : (s.zoneStatus z st r).setp = s.setp := rfl
@[simp] theorem State.zoneStatus_adoptQueue (z : Fin 16) (st : ZoneStatus) (r : Option Rect) : (s.zoneStatus z st r).adoptQueue = s.adoptQueue := rfl

@[simp] theorem State.modFence_pending (n : Fin 8) (f : Fence → Fence) : (s.modFence n f).pending = s.pending := rfl
@[simp] theorem State.modFence_startup (n : Fin 8) (f : Fence → Fence) : (s.modFence n f).startup = s.startup := rfl
@[simp] theorem State.modFence_loadEntry (n : Fin 8) (f : Fence → Fence) : (s.modFence n f).loadEntry = s.loadEntry := rfl
@[simp] theorem State.modFence_base (n : Fin 8) (f : Fence → Fence) : (s.modFence n f).base = s.base := rfl
@[simp] theorem State.modFence_mem (n : Fin 8) (f : Fence → Fence) : (s.modFence n f).mem = s.mem := rfl
@[simp] theorem State.modFence_pins (n : Fin 8) (f : Fence → Fence) : (s.modFence n f).pins = s.pins := rfl
@[simp] theorem State.modFence_bus (n : Fin 8) (f : Fence → Fence) : (s.modFence n f).bus = s.bus := rfl
@[simp] theorem State.modFence_port (n : Fin 8) (f : Fence → Fence) : (s.modFence n f).port = s.port := rfl
@[simp] theorem State.modFence_timer (n : Fin 8) (f : Fence → Fence) : (s.modFence n f).timer = s.timer := rfl
@[simp] theorem State.modFence_lines (n : Fin 8) (f : Fence → Fence) : (s.modFence n f).lines = s.lines := rfl
@[simp] theorem State.modFence_cams (n : Fin 8) (f : Fence → Fence) : (s.modFence n f).cams = s.cams := rfl
@[simp] theorem State.modFence_floor (n : Fin 8) (f : Fence → Fence) : (s.modFence n f).floor = s.floor := rfl
@[simp] theorem State.modFence_shot (n : Fin 8) (f : Fence → Fence) : (s.modFence n f).shot = s.shot := rfl
@[simp] theorem State.modFence_setp (n : Fin 8) (f : Fence → Fence) : (s.modFence n f).setp = s.setp := rfl
@[simp] theorem State.modFence_adoptQueue (n : Fin 8) (f : Fence → Fence) : (s.modFence n f).adoptQueue = s.adoptQueue := rfl
@[simp] theorem State.modFence_stat (n : Fin 8) (f : Fence → Fence) : (s.modFence n f).stat = s.stat := rfl

@[simp] theorem State.setFences_pending (fs : Vector Fence 8) : (s.setFences fs).pending = s.pending := rfl
@[simp] theorem State.setFences_startup (fs : Vector Fence 8) : (s.setFences fs).startup = s.startup := rfl
@[simp] theorem State.setFences_loadEntry (fs : Vector Fence 8) : (s.setFences fs).loadEntry = s.loadEntry := rfl
@[simp] theorem State.setFences_base (fs : Vector Fence 8) : (s.setFences fs).base = s.base := rfl
@[simp] theorem State.setFences_mem (fs : Vector Fence 8) : (s.setFences fs).mem = s.mem := rfl
@[simp] theorem State.setFences_pins (fs : Vector Fence 8) : (s.setFences fs).pins = s.pins := rfl
@[simp] theorem State.setFences_bus (fs : Vector Fence 8) : (s.setFences fs).bus = s.bus := rfl
@[simp] theorem State.setFences_port (fs : Vector Fence 8) : (s.setFences fs).port = s.port := rfl
@[simp] theorem State.setFences_timer (fs : Vector Fence 8) : (s.setFences fs).timer = s.timer := rfl
@[simp] theorem State.setFences_lines (fs : Vector Fence 8) : (s.setFences fs).lines = s.lines := rfl
@[simp] theorem State.setFences_cams (fs : Vector Fence 8) : (s.setFences fs).cams = s.cams := rfl
@[simp] theorem State.setFences_floor (fs : Vector Fence 8) : (s.setFences fs).floor = s.floor := rfl
@[simp] theorem State.setFences_shot (fs : Vector Fence 8) : (s.setFences fs).shot = s.shot := rfl
@[simp] theorem State.setFences_setp (fs : Vector Fence 8) : (s.setFences fs).setp = s.setp := rfl
@[simp] theorem State.setFences_adoptQueue (fs : Vector Fence 8) : (s.setFences fs).adoptQueue = s.adoptQueue := rfl

@[simp] theorem State.setMissed_pending (n : Nat) : (s.setMissed n).pending = s.pending := rfl
@[simp] theorem State.setMissed_startup (n : Nat) : (s.setMissed n).startup = s.startup := rfl
@[simp] theorem State.setMissed_loadEntry (n : Nat) : (s.setMissed n).loadEntry = s.loadEntry := rfl
@[simp] theorem State.setMissed_base (n : Nat) : (s.setMissed n).base = s.base := rfl
@[simp] theorem State.setMissed_mem (n : Nat) : (s.setMissed n).mem = s.mem := rfl
@[simp] theorem State.setMissed_pins (n : Nat) : (s.setMissed n).pins = s.pins := rfl
@[simp] theorem State.setMissed_bus (n : Nat) : (s.setMissed n).bus = s.bus := rfl
@[simp] theorem State.setMissed_fences (n : Nat) : (s.setMissed n).fences = s.fences := rfl
@[simp] theorem State.setMissed_port (n : Nat) : (s.setMissed n).port = s.port := rfl
@[simp] theorem State.setMissed_lines (n : Nat) : (s.setMissed n).lines = s.lines := rfl
@[simp] theorem State.setMissed_cams (n : Nat) : (s.setMissed n).cams = s.cams := rfl
@[simp] theorem State.setMissed_floor (n : Nat) : (s.setMissed n).floor = s.floor := rfl
@[simp] theorem State.setMissed_shot (n : Nat) : (s.setMissed n).shot = s.shot := rfl
@[simp] theorem State.setMissed_setp (n : Nat) : (s.setMissed n).setp = s.setp := rfl
@[simp] theorem State.setMissed_adoptQueue (n : Nat) : (s.setMissed n).adoptQueue = s.adoptQueue := rfl

@[simp] theorem State.setSync_pending (x : SyncState) : (s.setSync x).pending = s.pending := rfl
@[simp] theorem State.setSync_startup (x : SyncState) : (s.setSync x).startup = s.startup := rfl
@[simp] theorem State.setSync_loadEntry (x : SyncState) : (s.setSync x).loadEntry = s.loadEntry := rfl
@[simp] theorem State.setSync_base (x : SyncState) : (s.setSync x).base = s.base := rfl
@[simp] theorem State.setSync_mem (x : SyncState) : (s.setSync x).mem = s.mem := rfl
@[simp] theorem State.setSync_pins (x : SyncState) : (s.setSync x).pins = s.pins := rfl
@[simp] theorem State.setSync_bus (x : SyncState) : (s.setSync x).bus = s.bus := rfl
@[simp] theorem State.setSync_fences (x : SyncState) : (s.setSync x).fences = s.fences := rfl
@[simp] theorem State.setSync_port (x : SyncState) : (s.setSync x).port = s.port := rfl
@[simp] theorem State.setSync_lines (x : SyncState) : (s.setSync x).lines = s.lines := rfl
@[simp] theorem State.setSync_cams (x : SyncState) : (s.setSync x).cams = s.cams := rfl
@[simp] theorem State.setSync_floor (x : SyncState) : (s.setSync x).floor = s.floor := rfl
@[simp] theorem State.setSync_shot (x : SyncState) : (s.setSync x).shot = s.shot := rfl
@[simp] theorem State.setSync_setp (x : SyncState) : (s.setSync x).setp = s.setp := rfl
@[simp] theorem State.setSync_adoptQueue (x : SyncState) : (s.setSync x).adoptQueue = s.adoptQueue := rfl

@[simp] theorem startTimer_pending : (startTimer s).pending = s.pending := rfl
@[simp] theorem startTimer_startup : (startTimer s).startup = s.startup := rfl
@[simp] theorem startTimer_loadEntry : (startTimer s).loadEntry = s.loadEntry := rfl
@[simp] theorem startTimer_base : (startTimer s).base = s.base := rfl
@[simp] theorem startTimer_mem : (startTimer s).mem = s.mem := rfl
@[simp] theorem startTimer_pins : (startTimer s).pins = s.pins := rfl
@[simp] theorem startTimer_bus : (startTimer s).bus = s.bus := rfl
@[simp] theorem startTimer_fences : (startTimer s).fences = s.fences := rfl
@[simp] theorem startTimer_port : (startTimer s).port = s.port := rfl
@[simp] theorem startTimer_lines : (startTimer s).lines = s.lines := rfl
@[simp] theorem startTimer_cams : (startTimer s).cams = s.cams := rfl
@[simp] theorem startTimer_floor : (startTimer s).floor = s.floor := rfl
@[simp] theorem startTimer_shot : (startTimer s).shot = s.shot := rfl
@[simp] theorem startTimer_setp : (startTimer s).setp = s.setp := rfl
@[simp] theorem startTimer_adoptQueue : (startTimer s).adoptQueue = s.adoptQueue := rfl

@[simp] theorem startTimer_timer :
    (startTimer s).timer =
      { s.timer with nextExpiry := some s.timer.tint, lastTick := 0, sync := if s.timer.mode = .house then .seeking else .free } := rfl

@[simp] theorem startTimer_syncDue :
    (startTimer s).stat.syncDue = (s.stat.syncDue || ((if s.timer.mode = .house then SyncState.seeking else .free) != s.timer.sync)) := rfl

@[simp] theorem State.lineDue_pending : (s.lineDue).pending = s.pending := rfl
@[simp] theorem State.lineDue_startup : (s.lineDue).startup = s.startup := rfl
@[simp] theorem State.lineDue_loadEntry : (s.lineDue).loadEntry = s.loadEntry := rfl
@[simp] theorem State.lineDue_base : (s.lineDue).base = s.base := rfl
@[simp] theorem State.lineDue_mem : (s.lineDue).mem = s.mem := rfl
@[simp] theorem State.lineDue_pins : (s.lineDue).pins = s.pins := rfl
@[simp] theorem State.lineDue_bus : (s.lineDue).bus = s.bus := rfl
@[simp] theorem State.lineDue_fences : (s.lineDue).fences = s.fences := rfl
@[simp] theorem State.lineDue_port : (s.lineDue).port = s.port := rfl
@[simp] theorem State.lineDue_timer : (s.lineDue).timer = s.timer := rfl
@[simp] theorem State.lineDue_lines : (s.lineDue).lines = s.lines := rfl
@[simp] theorem State.lineDue_cams : (s.lineDue).cams = s.cams := rfl
@[simp] theorem State.lineDue_floor : (s.lineDue).floor = s.floor := rfl
@[simp] theorem State.lineDue_shot : (s.lineDue).shot = s.shot := rfl
@[simp] theorem State.lineDue_setp : (s.lineDue).setp = s.setp := rfl
@[simp] theorem State.lineDue_adoptQueue : (s.lineDue).adoptQueue = s.adoptQueue := rfl

@[simp] theorem State.freePort_pending : (s.freePort).pending = s.pending := rfl
@[simp] theorem State.freePort_startup : (s.freePort).startup = s.startup := rfl
@[simp] theorem State.freePort_loadEntry : (s.freePort).loadEntry = s.loadEntry := rfl
@[simp] theorem State.freePort_base : (s.freePort).base = s.base := rfl
@[simp] theorem State.freePort_mem : (s.freePort).mem = s.mem := rfl
@[simp] theorem State.freePort_pins : (s.freePort).pins = s.pins := rfl
@[simp] theorem State.freePort_bus : (s.freePort).bus = s.bus := rfl
@[simp] theorem State.freePort_fences : (s.freePort).fences = s.fences := rfl
@[simp] theorem State.freePort_timer : (s.freePort).timer = s.timer := rfl
@[simp] theorem State.freePort_lines : (s.freePort).lines = s.lines := rfl
@[simp] theorem State.freePort_cams : (s.freePort).cams = s.cams := rfl
@[simp] theorem State.freePort_floor : (s.freePort).floor = s.floor := rfl
@[simp] theorem State.freePort_shot : (s.freePort).shot = s.shot := rfl
@[simp] theorem State.freePort_setp : (s.freePort).setp = s.setp := rfl
@[simp] theorem State.freePort_adoptQueue : (s.freePort).adoptQueue = s.adoptQueue := rfl
@[simp] theorem State.freePort_stat : (s.freePort).stat = s.stat := rfl

@[simp] theorem State.leaveAdoption_pending (c : Cam) : (s.leaveAdoption c).pending = s.pending := rfl
@[simp] theorem State.leaveAdoption_startup (c : Cam) : (s.leaveAdoption c).startup = s.startup := rfl
@[simp] theorem State.leaveAdoption_loadEntry (c : Cam) : (s.leaveAdoption c).loadEntry = s.loadEntry := rfl
@[simp] theorem State.leaveAdoption_base (c : Cam) : (s.leaveAdoption c).base = s.base := rfl
@[simp] theorem State.leaveAdoption_mem (c : Cam) : (s.leaveAdoption c).mem = s.mem := rfl
@[simp] theorem State.leaveAdoption_pins (c : Cam) : (s.leaveAdoption c).pins = s.pins := rfl
@[simp] theorem State.leaveAdoption_bus (c : Cam) : (s.leaveAdoption c).bus = s.bus := rfl
@[simp] theorem State.leaveAdoption_fences (c : Cam) : (s.leaveAdoption c).fences = s.fences := rfl
@[simp] theorem State.leaveAdoption_port (c : Cam) : (s.leaveAdoption c).port = s.port := rfl
@[simp] theorem State.leaveAdoption_timer (c : Cam) : (s.leaveAdoption c).timer = s.timer := rfl
@[simp] theorem State.leaveAdoption_lines (c : Cam) : (s.leaveAdoption c).lines = s.lines := rfl
@[simp] theorem State.leaveAdoption_cams (c : Cam) : (s.leaveAdoption c).cams = s.cams := rfl
@[simp] theorem State.leaveAdoption_floor (c : Cam) : (s.leaveAdoption c).floor = s.floor := rfl
@[simp] theorem State.leaveAdoption_shot (c : Cam) : (s.leaveAdoption c).shot = s.shot := rfl
@[simp] theorem State.leaveAdoption_setp (c : Cam) : (s.leaveAdoption c).setp = s.setp := rfl
@[simp] theorem State.leaveAdoption_stat (c : Cam) : (s.leaveAdoption c).stat = s.stat := rfl

@[simp] theorem State.paint_pending (f : Fin 32 → Fin 32 → Cell → Cell) : (s.paint f).pending = s.pending := by dsimp only [State.paint]
@[simp] theorem State.paint_startup (f : Fin 32 → Fin 32 → Cell → Cell) : (s.paint f).startup = s.startup := by dsimp only [State.paint]
@[simp] theorem State.paint_loadEntry (f : Fin 32 → Fin 32 → Cell → Cell) : (s.paint f).loadEntry = s.loadEntry := by dsimp only [State.paint]
@[simp] theorem State.paint_base (f : Fin 32 → Fin 32 → Cell → Cell) : (s.paint f).base = s.base := by dsimp only [State.paint]
@[simp] theorem State.paint_mem (f : Fin 32 → Fin 32 → Cell → Cell) : (s.paint f).mem = s.mem := by dsimp only [State.paint]
@[simp] theorem State.paint_pins (f : Fin 32 → Fin 32 → Cell → Cell) : (s.paint f).pins = s.pins := by dsimp only [State.paint]
@[simp] theorem State.paint_bus (f : Fin 32 → Fin 32 → Cell → Cell) : (s.paint f).bus = s.bus := by dsimp only [State.paint]
@[simp] theorem State.paint_fences (f : Fin 32 → Fin 32 → Cell → Cell) : (s.paint f).fences = s.fences := by dsimp only [State.paint]
@[simp] theorem State.paint_port (f : Fin 32 → Fin 32 → Cell → Cell) : (s.paint f).port = s.port := by dsimp only [State.paint]
@[simp] theorem State.paint_timer (f : Fin 32 → Fin 32 → Cell → Cell) : (s.paint f).timer = s.timer := by dsimp only [State.paint]
@[simp] theorem State.paint_lines (f : Fin 32 → Fin 32 → Cell → Cell) : (s.paint f).lines = s.lines := by dsimp only [State.paint]
@[simp] theorem State.paint_cams (f : Fin 32 → Fin 32 → Cell → Cell) : (s.paint f).cams = s.cams := by dsimp only [State.paint]
@[simp] theorem State.paint_shot (f : Fin 32 → Fin 32 → Cell → Cell) : (s.paint f).shot = s.shot := by dsimp only [State.paint]
@[simp] theorem State.paint_setp (f : Fin 32 → Fin 32 → Cell → Cell) : (s.paint f).setp = s.setp := by dsimp only [State.paint]
@[simp] theorem State.paint_adoptQueue (f : Fin 32 → Fin 32 → Cell → Cell) : (s.paint f).adoptQueue = s.adoptQueue := by dsimp only [State.paint]

@[simp] theorem State.holdRect_pending (c : Cam) (r : Rect) : (s.holdRect c r).pending = s.pending := by simp only [State.holdRect, State.paint_pending]
@[simp] theorem State.holdRect_startup (c : Cam) (r : Rect) : (s.holdRect c r).startup = s.startup := by simp only [State.holdRect, State.paint_startup]
@[simp] theorem State.holdRect_loadEntry (c : Cam) (r : Rect) : (s.holdRect c r).loadEntry = s.loadEntry := by simp only [State.holdRect, State.paint_loadEntry]
@[simp] theorem State.holdRect_base (c : Cam) (r : Rect) : (s.holdRect c r).base = s.base := by simp only [State.holdRect, State.paint_base]
@[simp] theorem State.holdRect_mem (c : Cam) (r : Rect) : (s.holdRect c r).mem = s.mem := by simp only [State.holdRect, State.paint_mem]
@[simp] theorem State.holdRect_pins (c : Cam) (r : Rect) : (s.holdRect c r).pins = s.pins := by simp only [State.holdRect, State.paint_pins]
@[simp] theorem State.holdRect_bus (c : Cam) (r : Rect) : (s.holdRect c r).bus = s.bus := by simp only [State.holdRect, State.paint_bus]
@[simp] theorem State.holdRect_fences (c : Cam) (r : Rect) : (s.holdRect c r).fences = s.fences := by simp only [State.holdRect, State.paint_fences]
@[simp] theorem State.holdRect_port (c : Cam) (r : Rect) : (s.holdRect c r).port = s.port := by simp only [State.holdRect, State.paint_port]
@[simp] theorem State.holdRect_timer (c : Cam) (r : Rect) : (s.holdRect c r).timer = s.timer := by simp only [State.holdRect, State.paint_timer]
@[simp] theorem State.holdRect_lines (c : Cam) (r : Rect) : (s.holdRect c r).lines = s.lines := by simp only [State.holdRect, State.paint_lines]
@[simp] theorem State.holdRect_cams (c : Cam) (r : Rect) : (s.holdRect c r).cams = s.cams := by simp only [State.holdRect, State.paint_cams]
@[simp] theorem State.holdRect_shot (c : Cam) (r : Rect) : (s.holdRect c r).shot = s.shot := by simp only [State.holdRect, State.paint_shot]
@[simp] theorem State.holdRect_setp (c : Cam) (r : Rect) : (s.holdRect c r).setp = s.setp := by simp only [State.holdRect, State.paint_setp]
@[simp] theorem State.holdRect_adoptQueue (c : Cam) (r : Rect) : (s.holdRect c r).adoptQueue = s.adoptQueue := by simp only [State.holdRect, State.paint_adoptQueue]

@[simp] theorem State.freeOutside_pending (c : Cam) (r : Option Rect) : (s.freeOutside c r).pending = s.pending := by simp only [State.freeOutside, State.paint_pending]
@[simp] theorem State.freeOutside_startup (c : Cam) (r : Option Rect) : (s.freeOutside c r).startup = s.startup := by simp only [State.freeOutside, State.paint_startup]
@[simp] theorem State.freeOutside_loadEntry (c : Cam) (r : Option Rect) : (s.freeOutside c r).loadEntry = s.loadEntry := by simp only [State.freeOutside, State.paint_loadEntry]
@[simp] theorem State.freeOutside_base (c : Cam) (r : Option Rect) : (s.freeOutside c r).base = s.base := by simp only [State.freeOutside, State.paint_base]
@[simp] theorem State.freeOutside_mem (c : Cam) (r : Option Rect) : (s.freeOutside c r).mem = s.mem := by simp only [State.freeOutside, State.paint_mem]
@[simp] theorem State.freeOutside_pins (c : Cam) (r : Option Rect) : (s.freeOutside c r).pins = s.pins := by simp only [State.freeOutside, State.paint_pins]
@[simp] theorem State.freeOutside_bus (c : Cam) (r : Option Rect) : (s.freeOutside c r).bus = s.bus := by simp only [State.freeOutside, State.paint_bus]
@[simp] theorem State.freeOutside_fences (c : Cam) (r : Option Rect) : (s.freeOutside c r).fences = s.fences := by simp only [State.freeOutside, State.paint_fences]
@[simp] theorem State.freeOutside_port (c : Cam) (r : Option Rect) : (s.freeOutside c r).port = s.port := by simp only [State.freeOutside, State.paint_port]
@[simp] theorem State.freeOutside_timer (c : Cam) (r : Option Rect) : (s.freeOutside c r).timer = s.timer := by simp only [State.freeOutside, State.paint_timer]
@[simp] theorem State.freeOutside_lines (c : Cam) (r : Option Rect) : (s.freeOutside c r).lines = s.lines := by simp only [State.freeOutside, State.paint_lines]
@[simp] theorem State.freeOutside_cams (c : Cam) (r : Option Rect) : (s.freeOutside c r).cams = s.cams := by simp only [State.freeOutside, State.paint_cams]
@[simp] theorem State.freeOutside_shot (c : Cam) (r : Option Rect) : (s.freeOutside c r).shot = s.shot := by simp only [State.freeOutside, State.paint_shot]
@[simp] theorem State.freeOutside_setp (c : Cam) (r : Option Rect) : (s.freeOutside c r).setp = s.setp := by simp only [State.freeOutside, State.paint_setp]
@[simp] theorem State.freeOutside_adoptQueue (c : Cam) (r : Option Rect) : (s.freeOutside c r).adoptQueue = s.adoptQueue := by simp only [State.freeOutside, State.paint_adoptQueue]

@[simp] theorem State.blockedWrite_pending (c : Cam) : (s.blockedWrite c).pending = s.pending := rfl
@[simp] theorem State.blockedWrite_startup (c : Cam) : (s.blockedWrite c).startup = s.startup := rfl
@[simp] theorem State.blockedWrite_loadEntry (c : Cam) : (s.blockedWrite c).loadEntry = s.loadEntry := rfl
@[simp] theorem State.blockedWrite_base (c : Cam) : (s.blockedWrite c).base = s.base := rfl
@[simp] theorem State.blockedWrite_mem (c : Cam) : (s.blockedWrite c).mem = s.mem := rfl
@[simp] theorem State.blockedWrite_pins (c : Cam) : (s.blockedWrite c).pins = s.pins := rfl
@[simp] theorem State.blockedWrite_bus (c : Cam) : (s.blockedWrite c).bus = s.bus := rfl
@[simp] theorem State.blockedWrite_fences (c : Cam) : (s.blockedWrite c).fences = s.fences := rfl
@[simp] theorem State.blockedWrite_port (c : Cam) : (s.blockedWrite c).port = s.port := rfl
@[simp] theorem State.blockedWrite_timer (c : Cam) : (s.blockedWrite c).timer = s.timer := rfl
@[simp] theorem State.blockedWrite_lines (c : Cam) : (s.blockedWrite c).lines = s.lines := rfl
@[simp] theorem State.blockedWrite_floor (c : Cam) : (s.blockedWrite c).floor = s.floor := rfl
@[simp] theorem State.blockedWrite_shot (c : Cam) : (s.blockedWrite c).shot = s.shot := rfl
@[simp] theorem State.blockedWrite_setp (c : Cam) : (s.blockedWrite c).setp = s.setp := rfl
@[simp] theorem State.blockedWrite_adoptQueue (c : Cam) : (s.blockedWrite c).adoptQueue = s.adoptQueue := rfl
@[simp] theorem State.blockedWrite_stat (c : Cam) : (s.blockedWrite c).stat = s.stat := rfl

/-! What the changed fields read -/

@[simp] theorem State.modStat_stat (f : StatusWriter → StatusWriter) : (s.modStat f).stat = f s.stat := rfl
@[simp] theorem State.flag_stat (f : BitVec 12) : (s.flag f).stat = setFlags f s.stat := rfl
@[simp] theorem State.error_stat (e : ErrClass) (o : Bool) (a : Addr) (w : MWord) :
    (s.error e o a w).stat = captureError ⟨e, o, a, w⟩ s.stat := rfl
@[simp] theorem State.modBus_bus (f : HostBus → HostBus) : (s.modBus f).bus = f s.bus := rfl
@[simp] theorem State.endHost_bus (a : Addr) (b e : Bool) (w : MWord) :
    (s.endHost a b e w).bus = { s.bus with ended := some { addr := a, isWrite := b, berr := e, word := w } } := rfl
@[simp] theorem State.modShot_shot (f : ShotEngine → ShotEngine) : (s.modShot f).shot = f s.shot := rfl
@[simp] theorem State.modTimer_timer (f : FrameTimer → FrameTimer) : (s.modTimer f).timer = f s.timer := rfl
@[simp] theorem State.setMissed_timer (n : Nat) : (s.setMissed n).timer = { s.timer with missed := n } := rfl
@[simp] theorem State.setSync_timer (x : SyncState) : (s.setSync x).timer = { s.timer with sync := x } := rfl
@[simp] theorem State.setFences_fences (fs : Vector Fence 8) : (s.setFences fs).fences = fs := rfl
@[simp] theorem State.freePort_port : s.freePort.port = { s.port with cur := none } := rfl
@[simp] theorem State.write_mem (a : Addr) (w : MWord) : (s.write a w).mem = memInsert a.toNat w s.mem := rfl
@[simp] theorem State.leaveAdoption_adoptQueue (c : Cam) :
    (s.leaveAdoption c).adoptQueue = s.adoptQueue.filter (· != c) := rfl
@[simp] theorem State.lineDue_stat : s.lineDue.stat = { s.stat with lineDue := true } := rfl

/-! The fields of the Status Writer after a source sets flags -/

variable (w : StatusWriter)

@[simp] theorem setFlags_flags (f : BitVec 12) : (setFlags f w).flags = w.flags ||| f := rfl
@[simp] theorem setFlags_mask (f : BitVec 12) : (setFlags f w).mask = w.mask := rfl
@[simp] theorem setFlags_capture (f : BitVec 12) : (setFlags f w).capture = w.capture := rfl
@[simp] theorem setFlags_probe (f : BitVec 12) : (setFlags f w).probe = w.probe := rfl
@[simp] theorem setFlags_captureDue (f : BitVec 12) : (setFlags f w).captureDue = w.captureDue := rfl
@[simp] theorem setFlags_lineDue (f : BitVec 12) : (setFlags f w).lineDue = w.lineDue := rfl
@[simp] theorem setFlags_syncDue (f : BitVec 12) : (setFlags f w).syncDue = w.syncDue := rfl
@[simp] theorem setFlags_missedDue (f : BitVec 12) : (setFlags f w).missedDue = w.missedDue := rfl
@[simp] theorem setFlags_hitsDue (f : BitVec 12) : (setFlags f w).hitsDue = w.hitsDue := rfl
@[simp] theorem setFlags_probeDue (f : BitVec 12) : (setFlags f w).probeDue = w.probeDue := rfl
@[simp] theorem setFlags_zoneDue (f : BitVec 12) : (setFlags f w).zoneDue = w.zoneDue := rfl
@[simp] theorem setFlags_recordDue (f : BitVec 12) : (setFlags f w).recordDue = w.recordDue := rfl
@[simp] theorem setFlags_cellDue (f : BitVec 12) : (setFlags f w).cellDue = w.cellDue := rfl
@[simp] theorem setFlags_rest (f : BitVec 12) : (setFlags f w).rest = w.rest := rfl
@[simp] theorem setFlags_item (f : BitVec 12) : (setFlags f w).item = w.item := rfl
@[simp] theorem setFlags_seq (f : BitVec 12) : (setFlags f w).seq = w.seq := rfl
@[simp] theorem setFlags_interval (f : BitVec 12) : (setFlags f w).interval = w.interval := rfl
@[simp] theorem setFlags_count (f : BitVec 12) : (setFlags f w).count = w.count := rfl

@[simp] theorem clearFlags_flags (f : BitVec 12) : (clearFlags f w).flags = w.flags &&& ~~~f := rfl
@[simp] theorem clearFlags_flagsDue (f : BitVec 12) : (clearFlags f w).flagsDue = w.flagsDue := rfl
@[simp] theorem clearFlags_mask (f : BitVec 12) : (clearFlags f w).mask = w.mask := rfl
@[simp] theorem clearFlags_capture (f : BitVec 12) : (clearFlags f w).capture = w.capture := rfl
@[simp] theorem clearFlags_probe (f : BitVec 12) : (clearFlags f w).probe = w.probe := rfl
@[simp] theorem clearFlags_captureDue (f : BitVec 12) : (clearFlags f w).captureDue = w.captureDue := rfl
@[simp] theorem clearFlags_lineDue (f : BitVec 12) : (clearFlags f w).lineDue = w.lineDue := rfl
@[simp] theorem clearFlags_syncDue (f : BitVec 12) : (clearFlags f w).syncDue = w.syncDue := rfl
@[simp] theorem clearFlags_missedDue (f : BitVec 12) : (clearFlags f w).missedDue = w.missedDue := rfl
@[simp] theorem clearFlags_hitsDue (f : BitVec 12) : (clearFlags f w).hitsDue = w.hitsDue := rfl
@[simp] theorem clearFlags_probeDue (f : BitVec 12) : (clearFlags f w).probeDue = w.probeDue := rfl
@[simp] theorem clearFlags_zoneDue (f : BitVec 12) : (clearFlags f w).zoneDue = w.zoneDue := rfl
@[simp] theorem clearFlags_recordDue (f : BitVec 12) : (clearFlags f w).recordDue = w.recordDue := rfl
@[simp] theorem clearFlags_cellDue (f : BitVec 12) : (clearFlags f w).cellDue = w.cellDue := rfl
@[simp] theorem clearFlags_rest (f : BitVec 12) : (clearFlags f w).rest = w.rest := rfl
@[simp] theorem clearFlags_item (f : BitVec 12) : (clearFlags f w).item = w.item := rfl
@[simp] theorem clearFlags_seq (f : BitVec 12) : (clearFlags f w).seq = w.seq := rfl
@[simp] theorem clearFlags_interval (f : BitVec 12) : (clearFlags f w).interval = w.interval := rfl
@[simp] theorem clearFlags_count (f : BitVec 12) : (clearFlags f w).count = w.count := rfl

/-! Cameras after an update -/

@[simp] theorem State.cam_setCam_self (c : Cam) (k : Camera) : (s.setCam c k).cam c = k := by
  simp [State.cam, State.setCam]

theorem State.cam_setCam_other {c d : Cam} (h : d ≠ c) (k : Camera) : (s.setCam c k).cam d = s.cam d := by
  have h' : (c : Nat) ≠ d := fun e => h (Fin.ext e.symm)
  simp [State.cam, State.setCam, Vector.getElem_set_ne, h']

@[simp] theorem State.cam_modCam_self (c : Cam) (f : Camera → Camera) : (s.modCam c f).cam c = f (s.cam c) :=
  State.cam_setCam_self s c _

theorem State.cam_modCam_other {c d : Cam} (h : d ≠ c) (f : Camera → Camera) : (s.modCam c f).cam d = s.cam d :=
  State.cam_setCam_other s h _

theorem State.cam_modCam (c d : Cam) (f : Camera → Camera) :
    (s.modCam c f).cam d = if d = c then f (s.cam c) else s.cam d := by
  split
  · next h => subst h; simp
  · next h => exact State.cam_modCam_other s h f

theorem State.cam_congr {s t : State} (h : s.cams = t.cams) (c : Cam) : s.cam c = t.cam c := by
  simp [State.cam, h]

theorem State.read_congr {s t : State} (h : s.mem = t.mem) (a : Addr) : s.read a = t.read a := by
  simp [State.read, h]

theorem State.cams_ext {s t : State} (h : ∀ c, s.cam c = t.cam c) : s.cams = t.cams := by
  apply Vector.ext
  intro i hi
  exact h ⟨i, hi⟩

@[simp] theorem State.write_cam (a : Addr) (w : MWord) (d : Cam) : (s.write a w).cam d = s.cam d := rfl
@[simp] theorem State.modStat_cam (f : StatusWriter → StatusWriter) (d : Cam) : (s.modStat f).cam d = s.cam d := rfl
@[simp] theorem State.flag_cam (f : BitVec 12) (d : Cam) : (s.flag f).cam d = s.cam d := rfl
@[simp] theorem State.error_cam (e : ErrClass) (o : Bool) (a : Addr) (w : MWord) (d : Cam) : (s.error e o a w).cam d = s.cam d := rfl
@[simp] theorem State.modBus_cam (f : HostBus → HostBus) (d : Cam) : (s.modBus f).cam d = s.cam d := rfl
@[simp] theorem State.endHost_cam (a : Addr) (b e : Bool) (w : MWord) (d : Cam) : (s.endHost a b e w).cam d = s.cam d := rfl
@[simp] theorem State.modShot_cam (f : ShotEngine → ShotEngine) (d : Cam) : (s.modShot f).cam d = s.cam d := rfl
@[simp] theorem State.modTimer_cam (f : FrameTimer → FrameTimer) (d : Cam) : (s.modTimer f).cam d = s.cam d := rfl
@[simp] theorem State.modZone_cam (z : Fin 16) (f : Zone → Zone) (d : Cam) : (s.modZone z f).cam d = s.cam d := rfl
@[simp] theorem State.zoneStatus_cam (z : Fin 16) (st : ZoneStatus) (r : Option Rect) (d : Cam) : (s.zoneStatus z st r).cam d = s.cam d := rfl
@[simp] theorem State.modFence_cam (n : Fin 8) (f : Fence → Fence) (d : Cam) : (s.modFence n f).cam d = s.cam d := rfl
@[simp] theorem State.setFences_cam (fs : Vector Fence 8) (d : Cam) : (s.setFences fs).cam d = s.cam d := rfl
@[simp] theorem State.setMissed_cam (n : Nat) (d : Cam) : (s.setMissed n).cam d = s.cam d := rfl
@[simp] theorem State.setSync_cam (x : SyncState) (d : Cam) : (s.setSync x).cam d = s.cam d := rfl
@[simp] theorem State.lineDue_cam (d : Cam) : (s.lineDue).cam d = s.cam d := rfl
@[simp] theorem State.freePort_cam (d : Cam) : (s.freePort).cam d = s.cam d := rfl
@[simp] theorem State.leaveAdoption_cam (c : Cam) (d : Cam) : (s.leaveAdoption c).cam d = s.cam d := rfl
@[simp] theorem State.paint_cam (f : Fin 32 → Fin 32 → Cell → Cell) (d : Cam) : (s.paint f).cam d = s.cam d := by simp only [State.cam, State.paint_cams]
@[simp] theorem State.holdRect_cam (c : Cam) (r : Rect) (d : Cam) : (s.holdRect c r).cam d = s.cam d := by simp only [State.holdRect, State.paint_cam]
@[simp] theorem State.freeOutside_cam (c : Cam) (r : Option Rect) (d : Cam) : (s.freeOutside c r).cam d = s.cam d := by simp only [State.freeOutside, State.paint_cam]

@[simp] theorem State.setCam_read (c : Cam) (k : Camera) (x : Addr) : (s.setCam c k).read x = s.read x := rfl
@[simp] theorem State.modCam_read (c : Cam) (f : Camera → Camera) (x : Addr) : (s.modCam c f).read x = s.read x := rfl
@[simp] theorem State.modStat_read (f : StatusWriter → StatusWriter) (x : Addr) : (s.modStat f).read x = s.read x := rfl
@[simp] theorem State.flag_read (f : BitVec 12) (x : Addr) : (s.flag f).read x = s.read x := rfl
@[simp] theorem State.error_read (e : ErrClass) (o : Bool) (a : Addr) (w : MWord) (x : Addr) : (s.error e o a w).read x = s.read x := rfl
@[simp] theorem State.modBus_read (f : HostBus → HostBus) (x : Addr) : (s.modBus f).read x = s.read x := rfl
@[simp] theorem State.endHost_read (a : Addr) (b e : Bool) (w : MWord) (x : Addr) : (s.endHost a b e w).read x = s.read x := rfl
@[simp] theorem State.modShot_read (f : ShotEngine → ShotEngine) (x : Addr) : (s.modShot f).read x = s.read x := rfl
@[simp] theorem State.modTimer_read (f : FrameTimer → FrameTimer) (x : Addr) : (s.modTimer f).read x = s.read x := rfl
@[simp] theorem State.modZone_read (z : Fin 16) (f : Zone → Zone) (x : Addr) : (s.modZone z f).read x = s.read x := rfl
@[simp] theorem State.zoneStatus_read (z : Fin 16) (st : ZoneStatus) (r : Option Rect) (x : Addr) : (s.zoneStatus z st r).read x = s.read x := rfl
@[simp] theorem State.modFence_read (n : Fin 8) (f : Fence → Fence) (x : Addr) : (s.modFence n f).read x = s.read x := rfl
@[simp] theorem State.setFences_read (fs : Vector Fence 8) (x : Addr) : (s.setFences fs).read x = s.read x := rfl
@[simp] theorem State.setMissed_read (n : Nat) (x : Addr) : (s.setMissed n).read x = s.read x := rfl
@[simp] theorem State.setSync_read (x : SyncState) (y : Addr) : (s.setSync x).read y = s.read y := rfl
@[simp] theorem State.lineDue_read (x : Addr) : (s.lineDue).read x = s.read x := rfl
@[simp] theorem State.freePort_read (x : Addr) : (s.freePort).read x = s.read x := rfl
@[simp] theorem State.leaveAdoption_read (c : Cam) (x : Addr) : (s.leaveAdoption c).read x = s.read x := rfl
@[simp] theorem State.paint_read (f : Fin 32 → Fin 32 → Cell → Cell) (x : Addr) : (s.paint f).read x = s.read x := by simp only [State.read, State.paint_mem]
@[simp] theorem State.holdRect_read (c : Cam) (r : Rect) (x : Addr) : (s.holdRect c r).read x = s.read x := by simp only [State.holdRect, State.paint_read]
@[simp] theorem State.freeOutside_read (c : Cam) (r : Option Rect) (x : Addr) : (s.freeOutside c r).read x = s.read x := by simp only [State.freeOutside, State.paint_read]
@[simp] theorem State.blockedWrite_read (c : Cam) (x : Addr) : (s.blockedWrite c).read x = s.read x := rfl

end Sys2Proof.Machine
end

