-- ==== Sys2Proof/Laws/Grid.lean ====
section
/-! SUPPORT. Cells after a change of the floor (R101, R106, R110). -/

namespace Sys2Proof.Machine

@[simp] theorem gridAt_gridOf {α : Type} (f : Fin 32 → Fin 32 → α) (x y : Fin 32) : gridAt (gridOf f) x y = f x y := by
  simp [gridAt, gridOf]

@[simp] theorem paint_cell (s : State) (f : Fin 32 → Fin 32 → Cell → Cell) (x y : Fin 32) :
    gridAt (s.paint f).floor.cells x y = f x y (gridAt s.floor.cells x y) := by
  simp [State.paint, paintCells]

/-- The FREE cells of the rectangle become HELD by the camera, and no other cell changes. -/
theorem holdRect_cell (s : State) (c : Cam) (r : Rect) (x y : Fin 32) :
    gridAt (s.holdRect c r).floor.cells x y =
      if inRect r x y = true ∧ gridAt s.floor.cells x y = .free then .held c else gridAt s.floor.cells x y := by
  simp [State.holdRect]

/-- The cells HELD by the camera outside the rectangle become FREE, and no other cell changes. -/
theorem freeOutside_cell (s : State) (c : Cam) (r : Option Rect) (x y : Fin 32) :
    gridAt (s.freeOutside c r).floor.cells x y =
      if gridAt s.floor.cells x y = .held c ∧ r.any (inRect · x y) = false then .free else gridAt s.floor.cells x y := by
  simp [State.freeOutside]

/-- anyCell finds a cell of the rectangle with the property. -/
theorem anyCell_iff (f : FloorMap) (r : Rect) (p : Cell → Bool) :
    anyCell f r p = true ↔ ∃ x y : Fin 32, inRect r x y = true ∧ p (gridAt f.cells x y) = true := by
  simp [anyCell, List.any_eq_true]
  constructor
  · rintro ⟨y, x, h⟩; exact ⟨x, y, h⟩
  · rintro ⟨x, y, h⟩; exact ⟨y, x, h⟩

end Sys2Proof.Machine
end

