-- ==== Sys2Proof/Laws/Layout.lean ====
section
/-! SUPPORT. Where the words of each area lie and how a host write to each is treated (R150, R152, R172 to R176). -/

namespace Sys2Proof.Machine

/-- The offset of a region address is the offset it was made from (R150). -/
@[simp] theorem offsetOf_addrOf (base : BitVec 2) (off : Offset) : offsetOf base (addrOf base off) = some off.toNat := by
  have h1 : (addrOf base off).extractLsb' 16 8 = base ++ 0#6 := by
    simp only [addrOf]
    ext i hi
    rw [← BitVec.getLsbD_eq_getElem, ← BitVec.getLsbD_eq_getElem, BitVec.getLsbD_extractLsb', BitVec.getLsbD_append,
      BitVec.getLsbD_append, BitVec.getLsbD_append]
    by_cases h : i < 6
    · simp [h, show 16 + i < 22 by omega]
    · simp [h, hi, show ¬ 16 + i < 22 by omega, show 16 + i - 22 = i - 6 by omega]
  have h2 : (addrOf base off).extractLsb' 0 16 = off := by
    simp only [addrOf]
    ext i hi
    simp only [BitVec.getElem_extractLsb', BitVec.getLsbD_append]
    simp [show i < 22 by omega, hi]
  simp [offsetOf, h1, h2]

set_option maxRecDepth 20000 in
theorem regionWord_hits (n : Fin 8) : regionWord (hitsOff n).toNat = .hits n := by revert n; decide

set_option maxRecDepth 20000 in
theorem regionWord_fenceBound (n : Fin 8) (k : Fin 4) : regionWord (fenceOff n k).toNat = .fenceBound n k := by
  revert n k; decide

set_option maxRecDepth 20000 in
theorem regionWord_fenceMode (n : Fin 8) : regionWord (fenceOff n 4).toNat = .fenceMode n := by revert n; decide

set_option maxRecDepth 20000 in
theorem regionWord_zoneBound (z : Fin 16) (k : Fin 4) : regionWord (zoneOff z k).toNat = .zoneBound z k := by
  revert z k; decide

set_option maxRecDepth 20000 in
theorem regionWord_zoneEnable (z : Fin 16) : regionWord (zoneOff z 4).toNat = .zoneEnable z := by revert z; decide

set_option maxRecDepth 20000 in
theorem regionWord_command (c : Cam) : regionWord (mailboxOff c 0).toNat = .command c := by revert c; decide

set_option maxRecDepth 20000 in
theorem regionWord_latch (c : Cam) (k : Fin 4) : regionWord (mailboxOff c (1 + k.val)).toNat = .latch c k := by
  revert c k; decide

set_option maxRecDepth 20000 in
theorem regionWord_slotLow (c : Cam) (a : Axis) : regionWord (frameOff c (48 + 2 * a.val)).toNat = .slot c a false := by
  revert c a; decide

set_option maxRecDepth 20000 in
theorem regionWord_slotHigh (c : Cam) (a : Axis) : regionWord (frameOff c (49 + 2 * a.val)).toNat = .slot c a true := by
  revert c a; decide

theorem regionWord_frame (c : Cam) (k : Fin 33) : regionWord (frameOff c k).toNat = .frame c := by
  have hc := c.isLt
  have hk := k.isLt
  have h : (frameOff c k).toNat = 0xA00 + 64 * c.val + k.val := by
    simp only [frameOff, BitVec.toNat_ofNat]; omega
  have hd : (0xA00 + 64 * c.val + k.val - 0xA00) / 64 = c.val := by omega
  have hm : (0xA00 + 64 * c.val + k.val - 0xA00) % 64 = k.val := by omega
  rw [h, regionWord, hd, hm]
  repeat rw [if_neg (by omega)]
  rw [if_pos (by omega)]
  simp [frameWordClass, hk]

theorem regionWord_config (c : Cam) (k : Fin 128) : regionWord (configOff c k).toNat = .config c := by
  have hc := c.isLt
  have hk := k.isLt
  have h : (configOff c k).toNat = 0x400 + 128 * c.val + k.val := by
    simp only [configOff, BitVec.toNat_ofNat]; omega
  have hd : (0x400 + 128 * c.val + k.val - 0x400) / 128 = c.val := by omega
  rw [h, regionWord, hd]
  repeat rw [if_neg (by omega)]
  rw [if_pos (by omega)]
  simp only [RegionWord.config.injEq]
  exact Fin.ext (Nat.mod_eq_of_lt hc)

theorem regionWord_shot (k : BitVec 14) : regionWord ((1#2 ++ k : BitVec 16)).toNat = .shot := by
  have hk := k.isLt
  have h : ((1#2 ++ k : BitVec 16)).toNat = 0x4000 + k.toNat := by
    rw [BitVec.toNat_append]
    simp only [BitVec.toNat_ofNat]
    rw [show (1 % 2 ^ 2) <<< 14 = 2 ^ 14 * 1 by decide, ← Nat.two_pow_add_eq_or_of_lt hk]
  rw [h, regionWord]
  repeat rw [if_neg (by omega)]
  rw [if_pos (by omega)]

set_option maxRecDepth 20000 in
/-- The FLOOR_X and FLOOR_Y slots are words 58 to 61 of the frame (R139). -/
theorem regionWord_floorSlot (c : Cam) (k : Fin 4) :
    regionWord (frameOff c (58 + k.val)).toNat = .slot c (if k.val < 2 then floorX else floorY) (k.val % 2 == 1) := by
  revert c k; decide

end Sys2Proof.Machine
end

