-- ==== Sys2Proof/Laws/Memory.lean ====
section
/-! SUPPORT. Memory: the canonical form is kept by every write, a write is read back, and it leaves every other word alone. -/

namespace Sys2Proof.Machine

/-- The head of a canonical list lies below every other address, and the rest is canonical. -/
theorem memWf_cons (b : Nat) (v : MWord) (m : List (Nat × MWord)) :
    memWf ((b, v) :: m) = true ↔
      (∀ e ∈ m, b < e.1) ∧ v ≠ Config.blankWord ∧ b < 2 ^ 24 ∧ memWf m = true := by
  simp [memWf, List.pairwise_cons, List.all_cons, and_assoc]
  tauto

/-- An address below every listed one reads blank. -/
theorem memLookup_below {a : Nat} {m : List (Nat × MWord)} (h : ∀ e ∈ m, a < e.1) : memLookup a m = Config.blankWord := by
  cases m with
  | nil => rfl
  | cons e m =>
    have he : a < e.1 := h e (by simp)
    simp [memLookup, Nat.ne_of_gt he, he]

/-- The addresses listed after an insertion are those listed before and the one inserted. -/
theorem memInsert_addr {a : Nat} {w : MWord} {m : List (Nat × MWord)} {e : Nat × MWord} (h : e ∈ memInsert a w m) :
    e.1 = a ∨ e ∈ m := by
  induction m with
  | nil =>
    simp only [memInsert] at h
    split at h <;> simp_all
  | cons x m ih =>
    simp only [memInsert] at h
    split at h
    · split at h
      · exact .inr (List.mem_cons_of_mem _ h)
      · rcases List.mem_cons.mp h with h | h
        · simp [h]
        · exact .inr (List.mem_cons_of_mem _ h)
    · split at h
      · split at h
        · exact .inr h
        · rcases List.mem_cons.mp h with h | h
          · simp [h]
          · exact .inr h
      · rcases List.mem_cons.mp h with h | h
        · exact .inr (by simp [h])
        · rcases ih h with h | h
          · exact .inl h
          · exact .inr (List.mem_cons_of_mem _ h)

/-- A write keeps the canonical form. -/
theorem memWf_memInsert {a : Nat} (ha : a < 2 ^ 24) (w : MWord) {m : List (Nat × MWord)} (h : memWf m = true) :
    memWf (memInsert a w m) = true := by
  induction m with
  | nil =>
    simp only [memInsert]
    split
    · exact h
    · next hw => exact (memWf_cons a w []).mpr ⟨by simp, hw, ha, h⟩
  | cons x m ih =>
    obtain ⟨b, v⟩ := x
    obtain ⟨h1, h2, h3, h4⟩ := (memWf_cons b v m).mp h
    simp only [memInsert]
    split
    · next hb =>
      split
      · exact h4
      · next hw => exact (memWf_cons a w m).mpr ⟨fun e he => hb ▸ h1 e he, hw, ha, h4⟩
    · split
      · next hlt =>
        split
        · exact h
        · next hw =>
          refine (memWf_cons a w _).mpr ⟨?_, hw, ha, h⟩
          intro e he
          rcases List.mem_cons.mp he with rfl | he
          · exact hlt
          · exact Nat.lt_trans hlt (h1 e he)
      · next hne hlt =>
        refine (memWf_cons b v _).mpr ⟨?_, h2, h3, ih h4⟩
        intro e he
        rcases memInsert_addr he with he | he
        · omega
        · exact h1 e he

/-- A word written is read back. -/
theorem memLookup_memInsert_self {a : Nat} (w : MWord) {m : List (Nat × MWord)} (h : memWf m = true) :
    memLookup a (memInsert a w m) = w := by
  induction m with
  | nil =>
    simp only [memInsert]
    split
    · next hw => simp [memLookup, hw]
    · simp [memLookup]
  | cons x m ih =>
    obtain ⟨b, v⟩ := x
    obtain ⟨h1, h2, h3, h4⟩ := (memWf_cons b v m).mp h
    simp only [memInsert]
    split
    · next hb =>
      split
      · next hw => rw [hw]; exact memLookup_below fun e he => hb ▸ h1 e he
      · simp [memLookup]
    · next hb =>
      split
      · next hlt =>
        split
        · next hw => simp [memLookup, hb, hlt, hw]
        · simp [memLookup]
      · next hlt => simp [memLookup, hb, hlt, ih h4]

/-- A write leaves every other word alone. -/
theorem memLookup_memInsert_other {a b : Nat} (hab : b ≠ a) (w : MWord) {m : List (Nat × MWord)} (h : memWf m = true) :
    memLookup b (memInsert a w m) = memLookup b m := by
  induction m with
  | nil =>
    simp only [memInsert]
    split
    · rfl
    · simp [memLookup, hab.symm]
  | cons x m ih =>
    obtain ⟨c, v⟩ := x
    obtain ⟨h1, h2, h3, h4⟩ := (memWf_cons c v m).mp h
    simp only [memInsert]
    split
    · next hc =>
      subst hc
      split
      · next hw =>
        by_cases hlt : b < c
        · rw [memLookup_below fun e he => Nat.lt_trans hlt (h1 e he)]
          simp [memLookup, hlt, hab.symm]
        · simp [memLookup, hlt, hab.symm]
      · simp [memLookup, hab.symm]
    · next hc =>
      split
      · next hlt =>
        split
        · rfl
        · by_cases hba : b < a
          · have hbc : b < c := Nat.lt_trans hba hlt
            simp [memLookup, hab.symm, hba, hbc, Nat.ne_of_gt hbc]
          · simp [memLookup, hab.symm, hba]
      · simp [memLookup, ih h4]

/-- A write that reaches memory puts its word at its address and leaves every other word alone. -/
theorem memoryPut_write {s : State} (h : MemoryForm s) (a : Addr) (w : MWord) : MemoryPut s a w (s.write a w) := by
  refine ⟨memLookup_memInsert_self w h, fun b hb => memLookup_memInsert_other ?_ w h⟩
  intro e
  exact hb (BitVec.eq_of_toNat_eq e)

/-- A write keeps the canonical form of memory. -/
theorem memoryForm_write {s : State} (h : MemoryForm s) (a : Addr) (w : MWord) : MemoryForm (s.write a w) :=
  memWf_memInsert a.isLt w h

/-- The memory of the reset state has the canonical form. -/
theorem memoryForm_reset : MemoryForm State.reset := by
  unfold MemoryForm
  rfl

/-- Equal memories read alike. -/
theorem SameMemory.of_mem {s t : State} (h : t.mem = s.mem) : SameMemory s t := fun a => State.read_congr h a

/-- A state with the memory of a write reads as the write says. -/
theorem MemoryPut.of_mem {s t : State} (h : MemoryForm s) {a : Addr} {w : MWord} (ht : t.mem = (s.write a w).mem) :
    MemoryPut s a w t := by
  obtain ⟨h1, h2⟩ := memoryPut_write h a w
  exact ⟨(State.read_congr ht a).trans h1, fun b hb => (State.read_congr ht b).trans (h2 b hb)⟩

end Sys2Proof.Machine
end

