-- ==== Sys2Proof/Laws/Settle.lean ====
section
/-! SUPPORT. What the end of an event can do: the settling of an event leaves everything named by Settled, and memory, as the event left
it; and what presenting a host access does to a ready part. -/

namespace Sys2Proof.Machine

theorem Settled.refl (s : State) : Settled s s := by constructor <;> first | rfl | exact fun _ => rfl

theorem Settled.trans {s t u : State} (h : Settled s t) (k : Settled t u) : Settled s u := by
  cases h; cases k
  constructor <;> simp_all

theorem Settled.cam {s t : State} (h : Settled s t) (c : Cam) : t.cam c = s.cam c := State.cam_congr h.cams c

/-- Settled with memory and the presented queue. -/
structure Calm (u t : State) : Prop extends Settled u t where
  mem : t.mem = u.mem
  queue : t.bus.queue = u.bus.queue

theorem Calm.refl (s : State) : Calm s s := ⟨Settled.refl s, rfl, rfl⟩

theorem Calm.trans {s t u : State} (h : Calm s t) (k : Calm t u) : Calm s u :=
  ⟨h.toSettled.trans k.toSettled, k.mem.trans h.mem, k.queue.trans h.queue⟩

/-! The Shot Engine's start -/

theorem startRequests_eq (s : State) : ∃ e, startRequests s = { s with shot := e } := by
  simp only [startRequests, startShot, joinArrivals]
  split
  · exact ⟨_, rfl⟩
  · exact ⟨_, rfl⟩

/-- An idle Shot Engine with no request, and a busy one with no arrivals, are left as they are. -/
theorem startRequests_quiet {s : State} (h : ShotQuiet s.shot) : (startRequests s).shot = s.shot := by
  obtain ⟨ha, hf⟩ := h
  have hj : (joinArrivals s).shot = s.shot := by
    cases hs : s.shot
    rw [hs] at ha
    simp only at ha
    simp [joinArrivals, State.modShot, hs, ha]
  simp only [startRequests, startShot, hj]
  split
  · next hop hr => rw [hf hop] at hr; cases hr
  · exact hj

/-- The Shot Engine has nothing left to start after a start. -/
theorem startRequests_shotQuiet (s : State) : ShotQuiet (startRequests s).shot := by
  simp only [startRequests, startShot]
  split
  · exact ⟨rfl, fun h => by cases h⟩
  · next h =>
    refine ⟨rfl, fun hop => ?_⟩
    cases hf : (joinArrivals s).shot.fifo with
    | nil => rfl
    | cons r rest => exact absurd hf (h r rest hop)

theorem startRequests_calm (s : State) : Calm s (startRequests s) := by
  have hq := @startRequests_quiet s
  obtain ⟨e, he⟩ := startRequests_eq s
  rw [he] at hq ⊢
  exact ⟨by constructor <;> first | rfl | exact hq, rfl, rfl⟩

/-! The host's turn -/

theorem pumpHost_of_empty {s : State} (h : s.bus.queue = []) : pumpHost s = s := by
  simp only [pumpHost, h, serveHost]
  split
  · cases s with
    | mk a b c d e f g i j k l m n o p q r =>
      cases g with
      | mk queue held req staging ended =>
        simp only at h
        subst h
        rfl
  · rfl

theorem pumpHost_of_waits {s : State} (h : HostWaits s) : pumpHost s = s := by
  by_cases hr : s.startup = .running
  · by_cases hq : s.bus.queue = []
    · exact pumpHost_of_empty hq
    · have hb := h hr hq
      obtain ⟨x, rest, hx⟩ := List.exists_cons_of_ne_nil hq
      simp only [pumpHost, hr, if_true, hx, serveHost]
      have hb' : hostBusy (s.modBus fun b => { b with queue := [] }) = true := hb
      rw [if_pos hb']
      cases s with
      | mk a b c d e f g i j k l m n o p q r =>
        cases g with
        | mk queue held req staging ended =>
          simp only at hx
          subst hx
          rfl
  · simp [pumpHost, hr]

/-- A ready part decodes a presented access at once. -/
theorem present_of_ready {s : State} (h : HostReady s) (x : HostAccess) : present x s = decodeHost x s := by
  have hq := h.queue
  have hs : (s.modBus fun b => { b with queue := b.queue ++ [x] }).modBus (fun b => { b with queue := [] }) = s := by
    cases s with
    | mk a b c d e f g i j k l m n o p q r =>
      cases g with
      | mk queue held req staging ended =>
        simp only at hq
        subst hq
        rfl
  simp only [present, pumpHost, State.modBus_startup, h.running, if_true, State.modBus_bus, hq, List.nil_append, serveHost]
  have hb : hostBusy ((s.modBus fun b => { b with queue := b.queue ++ [x] }).modBus (fun b => { b with queue := [] })) = false := by
    rw [hs]; exact h.free
  rw [if_neg (by simp [hb]), hs]

/-- With no low half held, a ready part tests the parity of the word and classes the access. -/
theorem present_classify {s : State} (h : HostReady s) (x : HostAccess) :
    present x s = classify x (testHostWord x s) := by
  rw [present_of_ready h]
  have hs : (testHostWord x s).bus.staging = none := by
    simp only [testHostWord]
    split
    · split
      · exact h.staging
      · exact h.staging
    · exact h.staging
  simp [decodeHost, hs]

/-! Grants -/

theorem grantOwn_calm (o : Owner) (a : Addr) (w x : Option MWord) (s : State) : Calm s (grantOwn o a w x s) :=
  ⟨by constructor <;> first | rfl | exact fun _ => rfl, rfl, rfl⟩

theorem grantWriteOut_calm {w : WriteOut} {rest : List WriteOut} {s : State} (h : s.setp.writeOuts = w :: rest) :
    Calm s (grantWriteOut w rest s) := by
  have hw : (grantWriteOut w rest s).setp.writeOuts.map writeOutPlan = s.setp.writeOuts.map writeOutPlan := by
    rw [h]; rfl
  exact ⟨by constructor <;> first | rfl | exact fun _ => rfl | exact hw, rfl, rfl⟩

theorem grantFill_calm (f : Fill) (a : Axis) (axes : List Axis) (rest : List Fill) (s : State) :
    Calm s (grantFill f a axes rest s) :=
  ⟨by constructor <;> first | rfl | exact fun _ => rfl, rfl, rfl⟩

theorem grantFirstFill_calm {s t : State} (h : grantFirstFill s = some t) : Calm s t := by
  unfold grantFirstFill at h
  split at h
  · cases h; exact grantFill_calm ..
  · cases h

theorem grantSetpoint_calm {s t : State} (h : grantSetpoint s = some t) : Calm s t := by
  simp only [grantSetpoint] at h
  split at h
  · next hw =>
    split at h
    · cases h; exact grantWriteOut_calm hw
    · cases hf : grantFirstFill s with
      | some u => rw [hf] at h; cases h; exact grantFirstFill_calm hf
      | none => rw [hf] at h; cases h; exact grantWriteOut_calm hw
  · exact grantFirstFill_calm h

theorem grantShot_calm {s t : State} (h : grantShot s = some t) : Calm s t := by
  simp only [grantShot, Option.map_eq_some_iff] at h
  obtain ⟨op, -, h⟩ := h
  split at h
  · subst h; exact grantOwn_calm ..
  · subst h; exact grantOwn_calm ..

/-- Taking up an item changes due marks and sequence numbers alone. -/
theorem modStat_takeItem_calm (i : StatusItem) (s : State) : Calm s (s.modStat (takeItem i)) := by
  cases i <;> exact ⟨by constructor <;> first | rfl | exact fun _ => rfl, rfl, rfl⟩

theorem grantLoadWrite_calm (n : Nat) (s : State) : Calm s (grantLoadWrite n s) := by
  simp only [grantLoadWrite]
  refine Calm.trans ?_ (grantOwn_calm ..)
  split
  · exact modStat_takeItem_calm ..
  · exact Calm.refl s

theorem grantAdoption_calm {s t : State} (h : grantAdoption s = some t) : Calm s t := by
  simp only [grantAdoption] at h
  split at h
  · cases h
  · split at h
    · cases h
    · simp only [Option.map_eq_some_iff] at h
      obtain ⟨off, -, h⟩ := h
      subst h; exact grantOwn_calm ..

theorem grantAdopt_calm {s t : State} (h : grantAdopt s = some t) : Calm s t := by
  simp only [grantAdopt] at h
  split at h
  · cases h
  · cases h; exact grantOwn_calm ..
  · cases h; exact grantLoadWrite_calm ..
  · exact grantAdoption_calm h

theorem grantItemWord_calm (i : StatusItem) (a : Addr) (d : BitVec 16) (rest : List (Addr × BitVec 16)) (s : State) :
    Calm s (grantItemWord i a d rest s) :=
  ⟨by constructor <;> first | rfl | exact fun _ => rfl, rfl, rfl⟩

theorem grantStatus_calm {s t : State} (h : grantStatus s = some t) : Calm s t := by
  simp only [grantStatus] at h
  split at h
  · cases h
  · split at h
    · cases h; exact grantItemWord_calm ..
    · split at h
      · cases h
      · next i _ =>
        split at h
        · cases h
        · cases h; exact (modStat_takeItem_calm i s).trans (grantItemWord_calm ..)

theorem grantHost_calm {s t : State} (h : grantHost s = some t) : Calm s t := by
  simp only [grantHost, Option.map_eq_some_iff] at h
  obtain ⟨a, -, h⟩ := h
  subst h
  exact ⟨by constructor <;> first | rfl | exact fun _ => rfl, rfl, rfl⟩

theorem ownGrants_calm {s t : State} (h : t ∈ ownGrants s) : Calm s t := by
  simp only [ownGrants, List.mem_filterMap, List.mem_cons, List.not_mem_nil, or_false, id_eq, exists_eq_right] at h
  rcases h with h | h | h | h
  · exact grantSetpoint_calm h.symm
  · exact grantShot_calm h.symm
  · exact grantAdopt_calm h.symm
  · exact grantStatus_calm h.symm

theorem pickGrant_calm {s : State} {grants : List State} (h : ∀ t ∈ grants, Calm s t) : Calm s (pickGrant s grants) := by
  simp only [pickGrant]
  split
  · exact Calm.refl s
  · exact h _ (by simp)
  · have hd : Calm s (grants.getD (Config.arbiterPick s.port.picks % grants.length) s) := by
      rw [List.getD_eq_getElem?_getD]
      cases hg : grants[Config.arbiterPick s.port.picks % grants.length]? with
      | none => exact Calm.refl s
      | some t => exact h t (List.mem_of_getElem? hg)
    exact hd.trans ⟨by constructor <;> first | rfl | exact fun _ => rfl, rfl, rfl⟩

theorem ruleGrant_calm (s : State) : Calm s (ruleGrant s) := by
  have hown : ∀ d : State, Calm s d → Calm s ((ownGrants s).head?.getD d) := by
    intro d hd
    cases ho : ownGrants s with
    | nil => exact hd
    | cons t l => exact ownGrants_calm (by rw [ho]; simp)
  unfold ruleGrant
  cases ht : grantHost s with
  | some t =>
    dsimp only
    split
    · exact grantHost_calm ht
    · exact hown t (grantHost_calm ht)
  | none => exact hown s (Calm.refl s)

/-- A grant changes the port, the requests for it and the Status Writer's marks alone. -/
theorem arbitrate_calm (wasFree : Bool) (s : State) : Calm s (arbitrate wasFree s) := by
  simp only [arbitrate]
  split
  · exact Calm.refl s
  · split
    · apply pickGrant_calm
      intro t ht
      rcases List.mem_append.mp ht with ht | ht
      · exact ownGrants_calm ht
      · exact grantHost_calm (Option.mem_toList.mp ht)
    · exact ruleGrant_calm s

theorem markRecords_calm (old s : State) : Calm s (markRecords old s) := ⟨by constructor <;> first | rfl | exact fun _ => rfl, rfl, rfl⟩

/-- The end of an event leaves everything that Settled names, and memory, as the event left it. -/
theorem settleWith_calm {u : State} (h : HostWaits u) (wasFree : Bool) (old : State) :
    Calm u (settleWith wasFree old u) := by
  obtain ⟨e, he⟩ := startRequests_eq u
  have hw : HostWaits (startRequests u) := by rw [he]; exact h
  rw [settleWith, pumpHost_of_waits hw]
  exact (((startRequests_calm u).trans (startRequests_calm _)).trans (markRecords_calm old _)).trans (arbitrate_calm ..)

theorem settle_calm {u : State} (h : HostWaits u) (old : State) : Calm u (settle old u) := settleWith_calm h _ old

theorem HostWaits.of_empty {s : State} (h : s.bus.queue = []) : HostWaits s := fun _ hq => absurd h hq

end Sys2Proof.Machine
end

