-- ==== Sys2Proof/Laws/Host.lean ====
section
/-! SUPPORT. The host's accesses: a forwarded access waits or holds the port, the class a written word gets, and how a host write that
completes in one event ends (R151, R161; log 7). -/

namespace Sys2Proof.Machine

/-! A forwarded access -/

/-- A state in which the access waits at the arbiter or holds the port. -/
def Pending (r : Access) (s : State) : Prop := s.bus.req = some r ∨ s.port.cur = some r

theorem grantOwn_req (o : Owner) (a : Addr) (w x : Option MWord) (s : State) : (grantOwn o a w x s).bus = s.bus := rfl

theorem ownGrants_bus {s t : State} (h : t ∈ ownGrants s) : t.bus = s.bus := by
  simp only [ownGrants, List.mem_filterMap, List.mem_cons, List.not_mem_nil, or_false, id_eq, exists_eq_right] at h
  have hfill : ∀ u, grantFirstFill s = some u → u.bus = s.bus := by
    intro u hu
    unfold grantFirstFill at hu
    split at hu
    · cases hu; rfl
    · cases hu
  rcases h with h | h | h | h
  · have h := h.symm
    simp only [grantSetpoint] at h
    split at h
    · split at h
      · cases h; rfl
      · cases hf : grantFirstFill s with
        | some u => rw [hf] at h; cases h; exact hfill _ hf
        | none => rw [hf] at h; cases h; rfl
    · exact hfill _ h
  · have h := h.symm
    simp only [grantShot, Option.map_eq_some_iff] at h
    obtain ⟨op, -, h⟩ := h
    split at h <;> (subst h; rfl)
  · have h := h.symm
    simp only [grantAdopt] at h
    split at h
    · cases h
    · cases h; rfl
    · cases h
      simp only [grantLoadWrite]
      split <;> rfl
    · simp only [grantAdoption] at h
      split at h
      · cases h
      · split at h
        · cases h
        · simp only [Option.map_eq_some_iff] at h
          obtain ⟨off, -, h⟩ := h
          subst h; rfl
  · have h := h.symm
    simp only [grantStatus] at h
    split at h
    · cases h
    · split at h
      · cases h; rfl
      · split at h
        · cases h
        · split at h
          · cases h
          · cases h; rfl

theorem grantHost_pending {s t : State} {r : Access} (hr : s.bus.req = some r) (h : grantHost s = some t) : Pending r t := by
  simp only [grantHost, hr, Option.map_some, Option.some.injEq] at h
  subst h
  exact .inr rfl

theorem pickGrant_pending {s : State} {r : Access} (hr : s.bus.req = some r) {grants : List State}
    (h : ∀ t ∈ grants, Pending r t) : Pending r (pickGrant s grants) := by
  unfold pickGrant
  split
  · exact .inl hr
  · exact h _ (by simp)
  · have hd : Pending r (grants.getD (Config.arbiterPick s.port.picks % grants.length) s) := by
      rw [List.getD_eq_getElem?_getD]
      cases hg : grants[Config.arbiterPick s.port.picks % grants.length]? with
      | none => exact .inl hr
      | some t => exact h t (List.mem_of_getElem? hg)
    exact hd

/-- A request of the host still waits after the grant, or is the one granted. -/
theorem arbitrate_pending {s : State} {r : Access} (hr : s.bus.req = some r) (wasFree : Bool) :
    Pending r (arbitrate wasFree s) := by
  have hown : ∀ t ∈ ownGrants s, Pending r t := fun t ht => .inl (by rw [ownGrants_bus ht]; exact hr)
  simp only [arbitrate]
  split
  · exact .inl hr
  · split
    · refine pickGrant_pending hr fun t ht => ?_
      rcases List.mem_append.mp ht with ht | ht
      · exact hown t ht
      · exact grantHost_pending hr (Option.mem_toList.mp ht)
    · unfold ruleGrant
      cases hg : grantHost s with
      | none => simp [grantHost, hr] at hg
      | some t =>
        have ht := grantHost_pending hr hg
        dsimp only
        split
        · exact ht
        · cases ho : ownGrants s with
          | nil => exact ht
          | cons u l => exact hown u (by rw [ho]; simp)

/-- A forwarded access waits at the arbiter or holds the port at the end of its event. -/
theorem settleWith_forwarded {u : State} {r : Access} (hr : u.bus.req = some r) (hq : HostWaits u) (wasFree : Bool) (old : State) :
    Pending r (settleWith wasFree old u) := by
  obtain ⟨e, he⟩ := startRequests_eq u
  have hw : HostWaits (startRequests u) := by rw [he]; exact hq
  rw [settleWith, pumpHost_of_waits hw]
  refine arbitrate_pending ?_ _
  obtain ⟨e', he'⟩ := startRequests_eq (startRequests u)
  have hbus : (startRequests (startRequests u)).bus = u.bus := by rw [he', he]
  simp only [markRecords, State.modStat_bus, hbus]
  exact hr

/-! Classes -/

@[simp] theorem testHostWord_good {x : HostAccess} {s : State} (h : x.write.all wordOk = true) : testHostWord x s = s := by
  cases hx : x.write with
  | none => simp [testHostWord, hx]
  | some w =>
    rw [hx] at h
    simp only [Option.all_some] at h
    simp [testHostWord, hx, h]

/-- A host write to a region word takes the course of its class. -/
theorem classify_region (off : Offset) (w : MWord) (s : State) :
    classify ⟨addrOf s.base off, some w⟩ s = regionWrite off.toNat ⟨addrOf s.base off, some w⟩ w s := by
  simp [classify]

@[simp] theorem testHostWord_base (x : HostAccess) (s : State) : (testHostWord x s).base = s.base := by
  simp only [testHostWord]
  split
  · split <;> rfl
  · rfl

@[simp] theorem testHostWord_mem (x : HostAccess) (s : State) : (testHostWord x s).mem = s.mem := by
  simp only [testHostWord]
  split
  · split <;> rfl
  · rfl

@[simp] theorem testHostWord_bus (x : HostAccess) (s : State) : (testHostWord x s).bus = s.bus := by
  simp only [testHostWord]
  split
  · split <;> rfl
  · rfl

/-- A ready part tests the word of a host write to a region word and treats it by its class. -/
theorem presentAt_region {s : State} (h : HostReady s) (off : Offset) (w : MWord) :
    presentAt off w s = regionWrite off.toNat ⟨addrOf s.base off, some w⟩ w (testHostWord ⟨addrOf s.base off, some w⟩ s) := by
  rw [presentAt, present_classify h]
  have := classify_region off w (testHostWord ⟨addrOf s.base off, some w⟩ s)
  rwa [testHostWord_base] at this

/-- A ready part takes a host write of a good word to a region word by its class. -/
theorem presentAt_good {s : State} (h : HostReady s) (off : Offset) {w : MWord} (hw : wordOk w = true) :
    presentAt off w s = regionWrite off.toNat ⟨addrOf s.base off, some w⟩ w s := by
  rw [presentAt, present_classify h, testHostWord_good (by simpa using hw), classify_region]

/-! Writes that complete in one event -/

/-- The state in which a host write of w to a has just ended at memory: the word is there, the port is free, and the access has ended
with HRDY. -/
def hostDone (lastOwn : Bool) (a : Addr) (w : MWord) (s : State) : State :=
  { s with
    mem := memInsert a.toNat w s.mem
    port := { s.port with cur := none, lastOwn := lastOwn }
    bus := { s.bus with ended := some { addr := a, isWrite := true, berr := false, word := w } } }

/-- The end at memory of the host's write that holds the port (R151): the word is there, the port free, and its owner takes it. -/
theorem endHostAccess_write {s : State} {a : Addr} {w : MWord} {e : OnEnd} (ans : Option MWord)
    (hp : s.port.cur = some ⟨.host e false, a, some w, none, true⟩) :
    endHostAccess ans s = takeOnEnd e w (hostDone s.port.lastOwn a w s) := by
  simp only [endHostAccess, hp, endWrite, landWrite, Option.getD_some, hostEnded, Bool.false_eq_true, if_false, if_true,
    Bool.false_and, Option.isSome_some, Option.isNone_some]
  apply congrArg
  simp only [State.endHost, State.modBus, State.freePort, State.write, hostDone]

/-- A host write of a good word that can complete at this event does: its owner takes it with the word in memory (R66, R114, R153). -/
theorem completeWrite_done {s : State} {off : Offset} {w : MWord} {e : OnEnd} (h : Completing s (addrOf s.base off) w e)
    (hw : wordOk w = true)
    (hc : ∀ u : State, regionWrite off.toNat ⟨addrOf s.base off, some w⟩ w u = forward (addrOf s.base off) (some w) none e u) :
    ∃ b, completeWrite off w s = settleWith false s (takeOnEnd e w (hostDone b (addrOf s.base off) w s)) := by
  rcases h.port with hp | hp
  · refine ⟨false, ?_⟩
    have hready : HostReady s :=
      ⟨h.running, by simp [hostBusy, h.held, h.req, hp], h.queue, h.staging⟩
    have hpres : present ⟨addrOf s.base off, some w⟩ s = forward (addrOf s.base off) (some w) none e s := by
      have := presentAt_good hready off hw
      rw [presentAt] at this
      rw [this, hc]
    have hany : s.port.cur.any (isHostWrite (addrOf s.base off) w) = false := by simp [hp]
    have hg : (grantHost (forward (addrOf s.base off) (some w) none e s)).getD (forward (addrOf s.base off) (some w) none e s) =
        { s with port := { s.port with cur := some ⟨.host e false, addrOf s.base off, some w, none, true⟩, lastOwn := false } } := by
      have hr := h.req
      simp only [forward, grantHost, State.modBus, Option.map_some, Option.getD_some]
      rw [← hr]
    have hcond : ((forward (addrOf s.base off) (some w) none e s).port.cur.isNone &&
        (forward (addrOf s.base off) (some w) none e s).bus.req.any (isHostWrite (addrOf s.base off) w)) = true := by
      simp [forward, State.modBus, hp, isHostWrite]
    unfold completeWrite
    simp only [hany, Bool.false_eq_true, if_false, hpres, hcond, if_true, hg]
    rw [endHostAccess_write none rfl]
    simp only [hostDone]
  · refine ⟨s.port.lastOwn, ?_⟩
    have hany : s.port.cur.any (isHostWrite (addrOf s.base off) w) = true := by simp [hp, isHostWrite]
    unfold completeWrite
    rw [if_pos hany, endHostAccess_write none hp]
    simp only [settle, hp, Option.isNone_some]

/-- A post of a good COMMAND word is taken by the Cue Unit at its completion (R66). -/
theorem postKind_done {s : State} {c : Cam} {tag : BitVec 8} {spare kind : BitVec 4} {par : BitVec 2}
    (h : Completing s (addrOf s.base (mailboxOff c 0)) (commandWord tag spare kind par) (.post c))
    (hw : wordOk (commandWord tag spare kind par) = true) :
    ∃ b, postKind c tag spare kind par s =
      settleWith false s (takePost c (commandWord tag spare kind par)
        (hostDone b (addrOf s.base (mailboxOff c 0)) (commandWord tag spare kind par) s)) := by
  unfold postKind
  generalize commandWord tag spare kind par = w at h hw
  have hc : ∀ u : State, regionWrite (mailboxOff c 0).toNat ⟨addrOf s.base (mailboxOff c 0), some w⟩ w u =
      forward (addrOf s.base (mailboxOff c 0)) (some w) none (.post c) u := by
    intro u
    unfold regionWrite
    rw [regionWord_command]
  obtain ⟨b, hb⟩ := completeWrite_done (off := mailboxOff c 0) (e := .post c) h hw hc
  refine ⟨b, hb.trans ?_⟩
  rw [takeOnEnd]

end Sys2Proof.Machine
end

