-- ==== Sys2Proof/Laws/Events.lean ====
section
/-! SUPPORT. How the state before the end of an event and the state after it are compared: Settled, memory, errors and due marks. -/

namespace Sys2Proof.Machine

theorem HostWaits.of_notRunning {s : State} (h : s.startup ≠ .running) : HostWaits s := fun hr => absurd hr h

/-- The host's wait depends on the load, the presented queue and who holds what the host asks for. -/
theorem HostWaits.congr {s t : State} (h : HostWaits s) (hs : t.startup = s.startup) (hb : t.bus = s.bus)
    (hp : (t.port.cur.any fun a => hostOwner a.owner) = s.port.cur.any fun a => hostOwner a.owner) : HostWaits t := by
  intro hr hq
  rw [hs] at hr
  rw [hb] at hq
  have := h hr hq
  simpa [hostBusy, hb, hp] using this

/-- A state that agrees with u when its event ends agrees with u after the event has settled. -/
theorem settleWith_settled {u v : State} (hw : HostWaits v) (h : Settled u v) (wasFree : Bool) (old : State) :
    Settled u (settleWith wasFree old v) :=
  h.trans (settleWith_calm hw wasFree old).toSettled

theorem settle_settled {u v : State} (hw : HostWaits v) (h : Settled u v) (old : State) : Settled u (settle old v) :=
  settleWith_settled hw h _ old

theorem settleWith_same {s v : State} (hw : HostWaits v) (h : v.mem = s.mem) (wasFree : Bool) (old : State) :
    SameMemory s (settleWith wasFree old v) :=
  .of_mem ((settleWith_calm hw wasFree old).mem.trans h)

theorem settle_same {s v : State} (hw : HostWaits v) (h : v.mem = s.mem) (old : State) : SameMemory s (settle old v) :=
  settleWith_same hw h _ old

theorem settleWith_put {s v : State} {a : Addr} {w : MWord} (hf : MemoryForm s) (hw : HostWaits v)
    (h : v.mem = memInsert a.toNat w s.mem) (wasFree : Bool) (old : State) : MemoryPut s a w (settleWith wasFree old v) :=
  .of_mem hf ((settleWith_calm hw wasFree old).mem.trans h)

theorem settle_put {s v : State} {a : Addr} {w : MWord} (hf : MemoryForm s) (hw : HostWaits v)
    (h : v.mem = memInsert a.toNat w s.mem) (old : State) : MemoryPut s a w (settle old v) :=
  settleWith_put hf hw h _ old

/-- The access at the port belongs to an owner that p names. -/
theorem portAccess_of {s : State} {a : Access} {p : Owner → Bool} (h : s.port.cur = some a) (hp : p a.owner = true) :
    portAccess p s = some a := by
  simp [portAccess, h, Option.filter, hp]

/-! Errors (R167) -/

/-- Handing an error on sets its flag and takes it into the record as R167 gives; due marks apart, nothing else changes. -/
theorem error_stat (cls : ErrClass) (own : Bool) (a : Addr) (w : MWord) (s : State) :
    ∃ fd cd, (s.error cls own a w).stat =
      { s.stat with
        flags := s.stat.flags ||| errFlag cls, capture := captured cls own a w s.stat.capture, flagsDue := fd, captureDue := cd } := by
  refine ⟨(s.stat.flagsDue || (s.stat.flags ||| errFlag cls != s.stat.flags)),
    (if severity s.stat.capture.cls < severity cls then true else s.stat.captureDue), ?_⟩
  by_cases h : severity s.stat.capture.cls < severity cls
  · simp [State.error, State.modStat, captureError, setFlags, captured, h]
  · simp [State.error, State.modStat, captureError, setFlags, captured, h]

theorem error_settled (cls : ErrClass) (own : Bool) (a : Addr) (w : MWord) (s : State) :
    Settled (withError cls own a w s) (s.error cls own a w) := by
  obtain ⟨fd, cd, h⟩ := error_stat cls own a w s
  constructor <;> first | rfl | exact fun _ => rfl | rw [h]; rfl

theorem testHostWord_settled (a : Addr) (w : MWord) (s : State) : Settled (tested a w s) (testHostWord ⟨a, some w⟩ s) := by
  simp only [tested, testHostWord]
  split
  · exact Settled.refl s
  · exact error_settled ..

/-! Forwarded accesses -/

theorem forward_settled {u v : State} (h : Settled u v) (a : Addr) (w x : Option MWord) (e : OnEnd) : Settled u (forward a w x e v) := by
  refine h.trans ?_
  constructor <;> first | rfl | exact fun _ => rfl

/-- An event that forwards a host access leaves it at the arbiter or at the port, and nothing else changes at its end (R151, R161). -/
theorem settle_forward {s u v : State} (h : Settled u v) (hq : v.bus.queue = []) (hm : v.mem = s.mem) (old : State) (a : Addr)
    (w x : Option MWord) (e : OnEnd) :
    SameMemory s (settle old (forward a w x e v)) ∧ Settled u (settle old (forward a w x e v)) ∧
      Forwarded a w x e (settle old (forward a w x e v)) := by
  have hw : HostWaits (forward a w x e v) := .of_empty hq
  exact ⟨settle_same hw hm old, settle_settled hw (forward_settled h a w x e) old, settleWith_forwarded rfl hw _ old⟩

theorem testHostWord_queue {s : State} (h : HostReady s) (x : HostAccess) : (testHostWord x s).bus.queue = [] := by
  rw [testHostWord_bus]; exact h.queue

end Sys2Proof.Machine
end

