-- ==== Sys2Proof/Laws/Cues.lean ====
section
/-! SUPPORT. What the operations on one camera can do: the result (R83), the end of the active cue (R73), the try of a claim (R106), the move
begin (R54), planning (R50) and the taking of the head (R48). Each leaves every other camera, and all but the floor's cells, the Shot Engine's
arrivals and the Status Writer, as it was. -/

namespace Sys2Proof.Machine

/-- t differs from s in camera c, the floor's cells, the requests arriving at the Shot Engine and the Status Writer at most. -/
structure Touches (c : Cam) (s t : State) : Prop where
  others : ∀ d : Cam, d ≠ c → t.cam d = s.cam d
  pending : t.pending = s.pending
  startup : t.startup = s.startup
  loadEntry : t.loadEntry = s.loadEntry
  base : t.base = s.base
  mem : t.mem = s.mem
  pins : t.pins = s.pins
  bus : t.bus = s.bus
  fences : t.fences = s.fences
  port : t.port = s.port
  timer : t.timer = s.timer
  lines : t.lines = s.lines
  setp : t.setp = s.setp
  adoptQueue : t.adoptQueue = s.adoptQueue
  zones : t.floor.zones = s.floor.zones
  fifo : t.shot.fifo = s.shot.fifo
  op : t.shot.op = s.shot.op

variable {c : Cam} {s t u : State}

theorem Touches.refl (c : Cam) (s : State) : Touches c s s := by constructor <;> first | rfl | exact fun _ _ => rfl

theorem Touches.trans (h : Touches c s t) (k : Touches c t u) : Touches c s u where
  others d hd := (k.others d hd).trans (h.others d hd)
  pending := k.pending.trans h.pending
  startup := k.startup.trans h.startup
  loadEntry := k.loadEntry.trans h.loadEntry
  base := k.base.trans h.base
  mem := k.mem.trans h.mem
  pins := k.pins.trans h.pins
  bus := k.bus.trans h.bus
  fences := k.fences.trans h.fences
  port := k.port.trans h.port
  timer := k.timer.trans h.timer
  lines := k.lines.trans h.lines
  setp := k.setp.trans h.setp
  adoptQueue := k.adoptQueue.trans h.adoptQueue
  zones := k.zones.trans h.zones
  fifo := k.fifo.trans h.fifo
  op := k.op.trans h.op

/-- A change of camera c alone. -/
theorem modCam_touches (c : Cam) (f : Camera → Camera) (s : State) : Touches c s (s.modCam c f) := by
  constructor <;> first
    | rfl
    | (intro d hd; exact Vector.getElem_set_ne c.isLt d.isLt fun e => hd (Fin.ext e.symm))

theorem State.paint_zones (f : Fin 32 → Fin 32 → Cell → Cell) (s : State) : (s.paint f).floor.zones = s.floor.zones := by
  dsimp only [State.paint]

/-- A change of the cells alone. -/
theorem paint_touches (c : Cam) (f : Fin 32 → Fin 32 → Cell → Cell) (s : State) : Touches c s (s.paint f) := by
  constructor <;> simp [State.paint_zones]

/-- A request arriving at the Shot Engine. -/
theorem arrive_touches (c : Cam) (r : ShotReq) (s : State) :
    Touches c s { s with shot := { s.shot with arrivals := s.shot.arrivals ++ [r] } } := by
  constructor <;> first | rfl | (intro d _; rfl)

/-- A change of the flags alone. -/
theorem flag_touches (c : Cam) (f : BitVec 12) (s : State) : Touches c s (s.flag f) := by
  constructor <;> first | rfl | (intro d _; rfl)

/-! Results and the end of the active cue -/

/-- Recording a result writes the result group and its count, and sets the result's flags (R83, R85). -/
theorem recordResult_eq (c : Cam) (tag : BitVec 8) (kind : BitVec 4) (code : Code) (detail : BitVec 16) (s : State) :
    recordResult c tag kind code detail s = (s.modCam c (withResult tag kind code detail)).flag (resultFlags code) := rfl

theorem recordResult_touches (c : Cam) (tag : BitVec 8) (kind : BitVec 4) (code : Code) (detail : BitVec 16) (s : State) :
    Touches c s (recordResult c tag kind code detail s) :=
  (modCam_touches c _ s).trans (flag_touches c _ _)

/-- Two changes of one camera are one change. -/
theorem State.modCam_modCam (c : Cam) (f g : Camera → Camera) (s : State) :
    (s.modCam c f).modCam c g = s.modCam c fun k => g (f k) := by
  simp [State.modCam, State.setCam, State.cam]

theorem State.modCam_flag (c : Cam) (f : Camera → Camera) (b : BitVec 12) (s : State) :
    (s.flag b).modCam c f = (s.modCam c f).flag b := rfl

/-- The end of the active cue is its result, and the camera is IDLE with its reasons empty (R73, R83). -/
theorem endActive_eq {q : Cue} (h : (s.cam c).active = some q) (code : Code) (detail : BitVec 16) :
    endActive c code detail s = (s.modCam c (cueEnded q code detail)).flag (resultFlags code) := by
  simp only [endActive, h, recordResult_eq, State.modCam_flag, State.modCam_modCam]; rfl

theorem endActive_touches (c : Cam) (code : Code) (detail : BitVec 16) (s : State) : Touches c s (endActive c code detail s) := by
  unfold endActive; dsimp only
  split
  · exact (recordResult_touches c _ _ _ _ s).trans (modCam_touches c _ _)
  · exact modCam_touches c _ _

/-! Move begin and claims -/

theorem beginMove_touches (c : Cam) (s : State) : Touches c s (beginMove c s) := modCam_touches c _ s

/-- What a try of a claim can do (R106): nothing with no claim, KEEP_OUT at a BLOCKED cell, denied at a cell another camera holds, and else
granted, with the move begun. -/
theorem tryClaim_cases (c : Cam) (s : State) :
    ((s.cam c).claim = none ∧ tryClaim c s = (s, false)) ∨
    ∃ r, (s.cam c).claim = some r ∧
      ((anyCell s.floor r (· == .blocked) = true ∧ tryClaim c s = (endActive c .keepOut 0 s, true)) ∨
       (anyCell s.floor r (· == .blocked) = false ∧ anyCell s.floor r (fun v => v != .free && v != .held c) = true ∧
          tryClaim c s = (s, false)) ∨
       (anyCell s.floor r (· == .blocked) = false ∧ anyCell s.floor r (fun v => v != .free && v != .held c) = false ∧
          tryClaim c s =
            (beginMove c ((s.holdRect c r).modCam c fun k => { k with held := some r, waitFloor := false }), false))) := by
  cases h : (s.cam c).claim with
  | none => exact .inl ⟨rfl, by simp [tryClaim, h]⟩
  | some r =>
    refine .inr ⟨r, rfl, ?_⟩
    cases h1 : anyCell s.floor r (· == .blocked) with
    | true => exact .inl ⟨rfl, by simp [tryClaim, h, h1]⟩
    | false =>
      cases h2 : anyCell s.floor r (fun v => v != .free && v != .held c) with
      | true => exact .inr (.inl ⟨rfl, rfl, by simp [tryClaim, h, h1, h2]⟩)
      | false => exact .inr (.inr ⟨rfl, rfl, by simp [tryClaim, h, h1, h2]⟩)

theorem tryClaim_touches (c : Cam) (s : State) : Touches c s (tryClaim c s).1 := by
  obtain ⟨_, h⟩ | ⟨r, _, ⟨_, h⟩ | ⟨_, _, h⟩ | ⟨_, _, h⟩⟩ := tryClaim_cases c s <;> rw [h]
  · exact Touches.refl c s
  · exact endActive_touches c _ _ s
  · exact Touches.refl c s
  · exact ((paint_touches c _ s).trans (modCam_touches c _ _)).trans (beginMove_touches c _)

theorem reasonsChanged_touches (c : Cam) (s : State) : Touches c s (reasonsChanged c s).1 := by
  unfold reasonsChanged; dsimp only
  split
  · split
    · exact tryClaim_touches c s
    · exact beginMove_touches c s
  · exact Touches.refl c s

/-! Planning and the head of the queue -/

theorem planActive_touches (c : Cam) (req : MoveRequest) (s : State) : Touches c s (planActive c req s).1 := by
  unfold planActive; dsimp only
  split
  · exact endActive_touches c _ _ s
  · exact endActive_touches c _ _ s
  · split
    · exact endActive_touches c _ _ s
    · exact (modCam_touches c _ s).trans (reasonsChanged_touches c _)

theorem takeHeadN_touches (n : Nat) (c : Cam) (s : State) : Touches c s (takeHeadN n c s) := by
  induction n generalizing s with
  | zero => exact Touches.refl c s
  | succ n ih =>
    unfold takeHeadN; dsimp only
    split
    · rename_i q rest _ _
      have h := modCam_touches c (fun k => { k with queue := rest, active := some q }) s
      split
      · exact (h.trans (modCam_touches c (fun k => { k with state := .fetching }) _)).trans (arrive_touches c _ _)
      · split
        · exact h.trans ((endActive_touches c _ _ _).trans (ih _))
        · split
          · exact h.trans ((planActive_touches c _ _).trans (ih _))
          · exact h.trans (planActive_touches c _ _)
    · exact Touches.refl c s

/-- The taking of the head touches its own camera alone (R48). -/
theorem takeHead_touches (c : Cam) (s : State) : Touches c s (takeHead c s) := takeHeadN_touches _ c s

theorem nextHead_touches {r : State × Bool} (h : Touches c s r.1) : Touches c s (nextHead c r) := by
  unfold nextHead
  split
  · exact h.trans (takeHead_touches c _)
  · exact h

/-- With no cue queued there is no head to take (R48). -/
theorem takeHead_of_empty (h : (s.cam c).queue = []) : takeHead c s = s := by simp [takeHead, h, takeHeadN]

/-- A camera that is not IDLE takes no head (R48). -/
theorem takeHead_of_busy (h : (s.cam c).state ≠ .idle) : takeHead c s = s := by
  unfold takeHead
  cases (s.cam c).queue.length with
  | zero => rfl
  | succ n => unfold takeHeadN; dsimp only; split <;> [contradiction; rfl]

theorem GotoNext.of_empty {k : Camera} (h : k.queue = []) : GotoNext k := by simp [GotoNext, h]

theorem GotoNext.of_head {k : Camera} {q : Cue} {rest : List Cue} (h : k.queue = q :: rest) (hq : q.kind = .goto) : GotoNext k := by
  simpa [GotoNext, h] using hq

@[simp] theorem headTaken_of_empty {k : Camera} (h : k.queue = []) : headTaken k = k := by unfold headTaken; rw [h]

@[simp] theorem headTaken_of_head {k : Camera} {q : Cue} {rest : List Cue} (h : k.queue = q :: rest) :
    headTaken k = { k with queue := rest, active := some q, state := .fetching } := by
  unfold headTaken; rw [h]

/-- An IDLE camera whose next cue, if there is one, is a GOTO takes it and asks for its shot (R48, R87). -/
theorem takeHead_goto (h : (s.cam c).state = .idle) (hg : GotoNext (s.cam c)) :
    takeHead c s =
      { s.setCam c (headTaken (s.cam c)) with
        shot :=
          { s.shot with
            arrivals := s.shot.arrivals ++ ((s.cam c).queue.head?.map fun q => ⟨c, q.arg.toNat, q.tag, .fetch⟩).toList } } := by
  cases hq : (s.cam c).queue with
  | nil =>
    have hs : s.setCam c (s.cam c) = s := by simp [State.setCam, State.cam]
    rw [takeHead_of_empty hq, headTaken_of_empty hq, hs]
    simp
  | cons q rest =>
    have hk : q.kind = .goto := hg q (by simp [hq])
    rw [headTaken_of_head hq]
    simp only [takeHead, hq, List.length_cons, takeHeadN, h, hk, State.modCam_modCam]
    rfl

/-- The slew, the advance and the position of a serviced tick, as the statements write them (R33). -/
theorem advanceMove_eq (k : Camera) :
    advanceMove k =
      { k with
        rate := rateAfter k, p := progressAfter k, setpoints := movePositions k.plan (progressAfter k)
        q := moveQ k.plan (progressAfter k) } := rfl

/-- The step size of DIRECT, as the statements write it (R141). -/
theorem directStep_eq (k : Camera) (a : Axis) : directStep k a = stepSize k a := by
  unfold directStep stepSize
  repeat' split
  all_goals rfl

/-- One axis's step of DIRECT, as the statements write it (R141). -/
theorem stepToward_eq (k : Camera) (a : Axis) (v : Int) : stepToward k.setpoints[a] v (directStep k a) = steppedTo k a v := by
  simp only [stepToward, steppedTo, directStep_eq, Int.natAbs_natCast]

/-- The positions that each axis's own value forms are the positions they are taken from. -/
theorem positionsOf_self (v : Positions) : (positionsOf fun a => v[a]) = v := by
  unfold positionsOf; ext i hi; simp

/-- The motion of a serviced tick is the one the statements name (R33, R141). -/
theorem serviceCamera_eq (k : Camera) : serviceCamera k = movedAtTick k := by
  unfold serviceCamera movedAtTick
  split
  · simp [*, advanceMove_eq]
  · simp [*, advanceMove_eq]
  · rename_i h
    simp only [h, reduceCtorEq, or_self, if_false, if_true, stepDirect]
    cases hd : k.direct
    · simp only [positionsOf_self, ← hd, ← h]
    · simp only [stepToward_eq]
  · simp_all

/-! The release examination -/

/-- With no camera waiting for floor the release examination tries none (R107). -/
theorem releaseExam_of_none (h : ∀ d : Cam, inWaitingSet (s.cam d) = false) : releaseExam s = s := by
  simp [releaseExam, examList, h]

/-- A camera that is not ROAMING gives nothing back (R110). -/
theorem giveBack_of_fixed (h : isRoaming (s.cam c) = false) (x y : Int) : giveBack c x y s = s := by simp [giveBack, h]

end Sys2Proof.Machine
end

