-- ==== Sys2Proof/Laws/Posts.lean ====
section
/-! SUPPORT. What a post does: with no faulty word the cue is judged on the state in which its COMMAND word has just ended at memory, and what
that leaves is what the event leaves (R66, R68). -/

namespace Sys2Proof.Machine

variable {s u : State} {c : Cam} {tag : BitVec 8} {spare kind : BitVec 4} {par : BitVec 2}

/-- The bits of a fold that sets bit p of each listed entry with the property. -/
theorem foldl_bits {n : Nat} (f : Fin n → Bool) (l : List (Fin n)) (m : BitVec 16) (i : Nat) (hi : i < 16) :
    (l.foldl (fun m p => if f p then m ||| (1#16 <<< p.val) else m) m).getLsbD i =
      (m.getLsbD i || l.any fun p => decide (p.val = i) && f p) := by
  induction l generalizing m with
  | nil => simp
  | cons p l ih =>
    rw [List.foldl_cons, ih, List.any_cons]
    have h1 : (1#16 <<< p.val).getLsbD i = decide (p.val = i) := by
      have hone : ∀ j : Nat, (1#16).getLsbD j = decide (j = 0) := by simp [BitVec.getLsbD_one]
      rw [BitVec.getLsbD_shiftLeft, hone]
      simp only [hi, decide_true, Bool.true_and]
      by_cases h : p.val = i
      · simp [h]
      · by_cases h2 : i < p.val
        · simp [h2]; omega
        · simp [h2]; omega
    cases hf : f p <;> simp [h1, Bool.or_assoc]

/-- Bit i of a set of true bits is set exactly when entry i has the property. -/
theorem boolBits_getLsbD {n : Nat} (f : Fin n → Bool) (i : Nat) (hi : i < 16) :
    (boolBits f).getLsbD i = true ↔ ∃ h : i < n, f ⟨i, h⟩ = true := by
  rw [boolBits, foldl_bits f _ _ i hi]
  rw [show (0 : BitVec 16).getLsbD i = false by simp, Bool.false_or, List.any_eq_true]
  simp only [List.mem_finRange, true_and, Bool.and_eq_true, decide_eq_true_eq]
  constructor
  · rintro ⟨p, rfl, h⟩; exact ⟨p.isLt, h⟩
  · rintro ⟨h, hf⟩; exact ⟨⟨i, h⟩, rfl, hf⟩

/-- The faulty words of a post: bit 0 for COMMAND, bit n + 1 for latch n (R68). -/
theorem postFaults_getLsbD (k : Camera) (w : MWord) (i : Nat) (hi : i < 16) :
    (postFaults k w).getLsbD i = true ↔
      (i = 0 ∧ wordOk w = false) ∨ (∃ n : Fin 4, i = n.val + 1 ∧ k.latches[n].good = false) := by
  rw [postFaults, boolBits_getLsbD _ i hi]
  constructor
  · rintro ⟨h, hf⟩
    by_cases h0 : i = 0
    · subst h0; exact .inl ⟨rfl, by simpa using hf⟩
    · refine .inr ⟨⟨i - 1, by omega⟩, by simp; omega, ?_⟩
      simpa [h0] using hf
  · rintro (⟨rfl, hw⟩ | ⟨n, rfl, hn⟩)
    · exact ⟨by omega, by simpa using hw⟩
    · exact ⟨by omega, by simpa using hn⟩

/-- With no faulty word the COMMAND word has good parity. -/
theorem wordOk_of_noFaults {k : Camera} {w : MWord} (h : postFaults k w = 0) : wordOk w = true := by
  cases hw : wordOk w with
  | true => rfl
  | false =>
    have := (postFaults_getLsbD k w 0 (by omega)).mpr (.inl ⟨rfl, hw⟩)
    simp [h] at this

theorem commandTag_commandWord : commandTag (commandWord tag spare kind par).data = tag := by
  refine BitVec.eq_of_getLsbD_eq fun i hi => ?_
  have h : (tag ++ (spare ++ kind)).getLsbD (8 + i) = tag.getLsbD i := by
    rw [BitVec.getLsbD_append, if_neg (by omega), show 8 + i - (4 + 4) = i by omega]
  simpa [commandTag, commandWord, hi] using h

theorem commandKind_commandWord : commandKind (commandWord tag spare kind par).data = kind := by
  refine BitVec.eq_of_getLsbD_eq fun i hi => ?_
  have h : (tag ++ (spare ++ kind)).getLsbD i = kind.getLsbD i := by
    rw [BitVec.getLsbD_append, if_pos (by omega), BitVec.getLsbD_append, if_pos hi]
  simpa [commandKind, commandWord, hi] using h

/-! Each kind code is judged by its cue (R70). -/

theorem judgeCue_goto (c : Cam) (tag : BitVec 8) (s : State) : judgeCue c tag 1 s = cueGoto c tag s := rfl
theorem judgeCue_return (c : Cam) (tag : BitVec 8) (s : State) : judgeCue c tag 2 s = cueReturn c tag s := rfl
theorem judgeCue_halt (c : Cam) (tag : BitVec 8) (s : State) : judgeCue c tag 3 s = cueHalt c tag s := rfl
theorem judgeCue_resume (c : Cam) (tag : BitVec 8) (s : State) : judgeCue c tag 4 s = cueResume c tag s := rfl
theorem judgeCue_abandon (c : Cam) (tag : BitVec 8) (s : State) : judgeCue c tag 5 s = cueAbandon c tag s := rfl
theorem judgeCue_override (c : Cam) (tag : BitVec 8) (s : State) : judgeCue c tag 6 s = cueOverride c tag s := rfl
theorem judgeCue_flush (c : Cam) (tag : BitVec 8) (s : State) : judgeCue c tag 7 s = cueFlush c tag s := rfl
theorem judgeCue_capture (c : Cam) (tag : BitVec 8) (s : State) : judgeCue c tag 8 s = cueCapture c tag s := rfl
theorem judgeCue_direct (c : Cam) (tag : BitVec 8) (s : State) : judgeCue c tag 9 s = cueDirect c tag s := rfl
theorem judgeCue_release (c : Cam) (tag : BitVec 8) (s : State) : judgeCue c tag 10 s = cueRelease c tag s := rfl
theorem judgeCue_enable (c : Cam) (tag : BitVec 8) (s : State) : judgeCue c tag 11 s = cueEnable c tag s := rfl
theorem judgeCue_disable (c : Cam) (tag : BitVec 8) (s : State) : judgeCue c tag 12 s = cueDisable c tag s := rfl

theorem judgeCue_unknown (c : Cam) (tag : BitVec 8) {kind : BitVec 4} (h : kind = 0 ∨ kind = 13 ∨ kind = 14 ∨ kind = 15) (s : State) :
    judgeCue c tag kind s = recordResult c tag kind .badKind 0 s := by
  rcases h with rfl | rfl | rfl | rfl <;> rfl

/-- Every kind code has its command, and the command posts it. -/
theorem exec_postOf (kind : BitVec 4) (c : Cam) (tag : BitVec 8) (spare : BitVec 4) (par : BitVec 2) (s : State) :
    exec (postOf kind c tag spare par) s = .next (postKind c tag spare kind par s) := by
  by_cases h1 : kind = 1
  · rw [h1]; rfl
  by_cases h2 : kind = 2
  · rw [h2]; rfl
  by_cases h3 : kind = 3
  · rw [h3]; rfl
  by_cases h4 : kind = 4
  · rw [h4]; rfl
  by_cases h5 : kind = 5
  · rw [h5]; rfl
  by_cases h6 : kind = 6
  · rw [h6]; rfl
  by_cases h7 : kind = 7
  · rw [h7]; rfl
  by_cases h8 : kind = 8
  · rw [h8]; rfl
  by_cases h9 : kind = 9
  · rw [h9]; rfl
  by_cases h10 : kind = 10
  · rw [h10]; rfl
  by_cases h11 : kind = 11
  · rw [h11]; rfl
  by_cases h12 : kind = 12
  · rw [h12]; rfl
  unfold postOf
  rw [if_neg h1, if_neg h2, if_neg h3, if_neg h4, if_neg h5, if_neg h6, if_neg h7, if_neg h8, if_neg h9, if_neg h10, if_neg h11, if_neg h12]
  rfl

/-- The state in which the host's COMMAND word has just ended at memory. -/
def posted (b : Bool) (s : State) (c : Cam) (w : MWord) : State := hostDone b (addrOf s.base (mailboxOff c 0)) w s

/-- A post with no faulty word is judged by its kind (R66, R68, R69). -/
theorem postKind_judged (h : Posting s c (commandWord tag spare kind par)) :
    ∃ b, postKind c tag spare kind par s = settleWith false s (judgeCue c tag kind (posted b s c (commandWord tag spare kind par))) := by
  obtain ⟨b, hb⟩ := postKind_done h.completing (wordOk_of_noFaults h.latches)
  refine ⟨b, hb.trans ?_⟩
  have hf : postFaults ((posted b s c (commandWord tag spare kind par)).cam c) (commandWord tag spare kind par) = 0 := h.latches
  rw [takePost, show (hostDone b (addrOf s.base (mailboxOff c 0)) (commandWord tag spare kind par) s) =
    posted b s c (commandWord tag spare kind par) from rfl]
  simp only [hf, ne_eq, not_true_eq_false, if_false, commandTag_commandWord, commandKind_commandWord]

/-- What the judging of a post leaves is what its event leaves: the word in memory, and all that Settled names. -/
theorem post_settled (h : Posting s c (commandWord tag spare kind par))
    (hj : ∀ b, Settled u (judgeCue c tag kind (posted b s c (commandWord tag spare kind par))) ∧
      (judgeCue c tag kind (posted b s c (commandWord tag spare kind par))).mem = (posted b s c (commandWord tag spare kind par)).mem ∧
      (judgeCue c tag kind (posted b s c (commandWord tag spare kind par))).bus = (posted b s c (commandWord tag spare kind par)).bus) :
    MemoryPut s (addrOf s.base (mailboxOff c 0)) (commandWord tag spare kind par) (postKind c tag spare kind par s) ∧
      Settled u (postKind c tag spare kind par s) := by
  obtain ⟨b, hb⟩ := postKind_judged h
  obtain ⟨h1, h2, h3⟩ := hj b
  have hw : HostWaits (judgeCue c tag kind (posted b s c (commandWord tag spare kind par))) := .of_empty (by rw [h3]; exact h.completing.queue)
  rw [hb]
  exact ⟨settleWith_put h.completing.memory hw h2 _ _, settleWith_settled hw h1 _ _⟩

/-- A post that only records a result, after a change of its camera, is what afterPost says. -/
theorem recordResult_settled {w : MWord} {kind : BitVec 4} {code : Code} {detail : BitVec 16} {b : Bool} (f : Camera → Camera) :
    Settled (afterPost s c w (withResult tag kind code detail (f (s.cam c))) code)
      (recordResult c tag kind code detail ((posted b s c w).modCam c f)) := by
  rw [recordResult_eq, State.modCam_modCam]
  constructor <;> first | rfl | exact fun _ => rfl

end Sys2Proof.Machine
end

