-- ==== Sys2Proof/Laws/Reports.lean ====
section
/-! SUPPORT. The due marks (R168): what marking and taking an item leave due, and where the load goes after a write (R164, R170). -/

namespace Sys2Proof.Machine

/-- Marking an item changes its own mark and no other (R168). -/
theorem itemDue_markItem (i j : StatusItem) (b : Bool) (w : StatusWriter) :
    itemDue j (markItem i b w) = if j = i then b else itemDue j w := by
  cases i <;> cases j <;> simp [itemDue, markItem, gridAt, Vector.getElem_set, Fin.ext_iff, eq_comm]
  rename_i x y x' y'
  by_cases hy : y.val = y'.val
  · by_cases hx : x.val = x'.val <;> simp [hx, hy]
  · simp [hy]

/-- Taking an item up clears its own mark and no other (R168). -/
theorem itemDue_takeItem (i j : StatusItem) (w : StatusWriter) :
    itemDue j (takeItem i w) = if j = i then false else itemDue j w := by
  rw [← itemDue_markItem]
  cases i <;> cases j <;> rfl

/-- The first due cell is due (R118). -/
theorem firstDueCell_due {g : Grid Bool} {p : Fin 32 × Fin 32} (h : firstDueCell g = some p) : gridAt g p.1 p.2 = true := by
  obtain ⟨y, _, h⟩ := List.exists_of_findSome?_eq_some h
  obtain ⟨x, hx, rfl⟩ := Option.map_eq_some_iff.mp h
  exact List.find?_some (p := fun x => gridAt g x y) hx

/-- The first due item is due (R168). -/
theorem firstDue_due {w : StatusWriter} {i : StatusItem} (h : firstDue w = some i) : itemDue i w = true := by
  unfold firstDue at h
  repeat' split at h
  all_goals try (cases h; assumption)
  all_goals
    simp only [Option.orElse_eq_orElse, Option.orElse_eq_or, Option.or_eq_some_iff, Option.map_eq_some_iff, Option.none_or,
      reduceCtorEq] at h
  · obtain ⟨n, hn, rfl⟩ | ⟨_, h⟩ := h
    · exact List.find?_some (p := fun n => w.hitsDue[n]) hn
    obtain h | ⟨h, _⟩ := h
    · cases h; assumption
    · cases h
  · obtain ⟨n, hn, rfl⟩ | ⟨_, ⟨z, hz, rfl⟩ | ⟨_, ⟨c, hc, rfl⟩ | ⟨_, q, hq, rfl⟩⟩⟩ := h
    · exact List.find?_some (p := fun n => w.hitsDue[n]) hn
    · exact List.find?_some (p := fun z => w.zoneDue[z]) hz
    · exact List.find?_some (p := fun c => w.recordDue[c]) hc
    · exact firstDueCell_due hq

/-- The load's next write comes after the one that ended (R164). -/
theorem le_nextLoadWrite (w : StatusWriter) (fuel n : Nat) : n ≤ nextLoadWrite w fuel n := by
  induction fuel generalizing n with
  | zero => exact Nat.le_refl n
  | succ f ih =>
    unfold nextLoadWrite
    repeat' split
    all_goals first | exact Nat.le_refl n | exact Nat.le_trans (Nat.le_succ n) (ih _)

/-- Where the next write does not belong to a group given up, it is the load's next (R164). -/
theorem nextLoadWrite_here {w : StatusWriter} {n : Nat} (fuel : Nat)
    (h : ∀ i : StatusItem, loadItem n = some (i, false) → itemDue i w = false) : nextLoadWrite w fuel n = n := by
  cases fuel with
  | zero => rfl
  | succ f =>
    unfold nextLoadWrite
    split
    · rename_i i e; rw [h i e]; rfl
    · rfl

end Sys2Proof.Machine
end

