-- ==== Sys2Proof/WellFormed.lean ====
section
/-! DEFINITION. Which commands are spelled as their row of the table says. Two rows have operands that can miss the row:
REGION_WRITE_REFUSED names a refused word, and POST_UNKNOWN_KIND a kind code that names no kind. exec gives every
command its meaning, these included (log 26). -/

namespace Sys2Proof

/-- The kind codes that name no kind (R69). -/
def unknownKind (k : BitVec 4) : Bool := k = 0 || k = 13 || k = 14 || k = 15

/-- The command is spelled as its row says. -/
def Instr.wellFormed : Instr → Bool
  | .regionWriteRefused off _ => decide (Machine.regionWord off.toNat = .refuse)
  | .postUnknownKind _ _ _ k _ => unknownKind k
  | .resetAssert _ => true
  | .resetRelease _ => true
  | .startupReadEnd _ => true
  | .startupWriteEnd => true
  | .hostRead _ => true
  | .hostWrite _ _ => true
  | .hostAccessEnd _ => true
  | .memoryTimeout _ => true
  | .flagsWordWrite _ => true
  | .maskWordWrite _ => true
  | .captureClearWrite _ => true
  | .missedFrameCounterWrite _ => true
  | .fenceHitCounterWrite _ _ => true
  | .fenceBoundWrite _ _ _ => true
  | .fenceModeWrite _ _ => true
  | .probeLowHalfWrite _ => true
  | .probeHighHalfWrite _ => true
  | .directSlotLowHalfWrite _ _ _ => true
  | .directSlotHighHalfWrite _ _ _ => true
  | .floorSlotWriteRefused _ _ _ => true
  | .setpointFrameWriteRefused _ _ _ => true
  | .configBlockWrite _ _ _ => true
  | .shotStoreWrite _ _ => true
  | .zoneBoundWrite _ _ _ => true
  | .zoneApply _ _ _ => true
  | .zoneRemove _ _ _ => true
  | .mailboxLatchWrite _ _ _ => true
  | .goto _ _ _ _ => true
  | .ret _ _ _ _ => true
  | .halt _ _ _ _ => true
  | .resume _ _ _ _ => true
  | .abandon _ _ _ _ => true
  | .override _ _ _ _ => true
  | .flush _ _ _ _ => true
  | .capture _ _ _ _ => true
  | .direct _ _ _ _ => true
  | .release _ _ _ _ => true
  | .enable _ _ _ _ => true
  | .disable _ _ _ _ => true
  | .adoptionReadEnd _ => true
  | .fetchReadEnd _ => true
  | .captureWriteEnd => true
  | .writeOutWriteEnd => true
  | .directFillWriteEnd => true
  | .statusWriteEnd => true
  | .intervalTimerExpiry => true
  | .refEdge _ _ => true
  | .floorTimeout _ => true
  | .statusInterval => true
  | .tallyEvent _ _ => true
  | .stopAssert => true
  | .stopRelease => true

end Sys2Proof
end

