-- ==== Sys2Proof/Tests/Slice0.lean ====
section
/-! SUPPORT. Tests of the model on small states, one event each, the expected values taken from the spec's worked examples or worked out by
hand from its rules; and, for each statement with hypotheses, a theorem that shows a state which meets them (witness_<name of the statement>). -/

namespace Sys2Proof.Tests

open Sys2Proof.Machine

/-! ## States -/

/-- The part after its load, with nothing due. -/
def run : State :=
  { State.reset with
    startup := .running
    stat :=
      { State.reset.stat with
        flagsDue := false, captureDue := false, lineDue := false, syncDue := false, missedDue := false
        hitsDue := Vector.replicate 8 false, probeDue := false, zoneDue := Vector.replicate 16 false
        recordDue := Vector.replicate 8 false, cellDue := Vector.replicate 32 (Vector.replicate 32 false) } }

/-- The state after a command. -/
def after (i : Instr) (s : State) : State :=
  match exec i s with
  | .next t => t
  | _ => s

/-- The part with camera 0 replaced. -/
def withK (k : Camera) (s : State := run) : State := { s with cams := s.cams.set 0 k }

/-- The part with an access at the port. -/
def atPort (o : Owner) (a : Addr) (w second : Option MWord := none) (s : State := run) : State :=
  { s with port := { s.port with cur := some ⟨o, a, w, second, true⟩ } }

/-- The part with a low half held. -/
def holding (p : StagedPair) (a : Addr) (lo : MWord) (s : State := run) : State :=
  { s with bus := { s.bus with staging := some ⟨p, a, lo⟩ } }

/-- The good parity of a COMMAND word. -/
def par (tag : BitVec 8) (kind : BitVec 4) : BitVec 2 := goodParity (tag ++ (0#4 ++ kind))

/-- Positions of the first four axes. -/
def at4 (p t z f : Int) : Positions := #v[p, t, z, f, 0, 0, 0]

/-- The camera of the worked cases of Chapter 2. -/
def head : Camera :=
  { resetCamera with
    state := .idle
    cfg :=
      { emptyConfig with
        kind := some .head, mask := 0x0F, slew := 32, tally := some 4
        axes := #v[⟨-400000, 400000, 300, 120⟩, ⟨-60000, 60000, 100, 60⟩, ⟨0, 50000, 200, 80⟩, ⟨0, 60000, 200, 80⟩, ⟨0, 0, 0, 0⟩,
          ⟨0, 0, 0, 0⟩, ⟨0, 0, 0, 0⟩] }
    setpoints := at4 10000 500 12000 30000 }

/-- The move of the worked cases: shot 7 with RAMP 20. -/
def request : MoveRequest := { target := at4 46000 (-1500) 12000 30000, duration := 0, ramp := 20, onAir := false }

/-- Its plan, by the table of stages. -/
def plan : Plan :=
  { origin := at4 10000 500 12000 30000, target := at4 46000 (-1500) 12000 30000, delta := at4 36000 (-2000) 0 0, detail := 0
    onAir := false, n := 140, r := 20, n' := 35840, r' := 5120, k := 314572800, c := 102 }

/-- The GOTO of the worked cases. -/
def goto7 : Cue := { tag := 9, kind := .goto, arg := 7, duration := 0, ramp := 20, level := 2, push := false, onAir := false }

/-- The camera in the move. -/
def moving : Camera := { head with state := .moving, active := some goto7, plan := plan, p := 17920, rate := 256, rt := 256 }

/-- The camera halted in it. -/
def halted : Camera := { moving with state := .halted, halt := true, rate := 0, rt := 0 }

/-- The camera waiting to begin it, the stop line's reason standing. -/
def waiting : Camera := { head with state := .waiting, active := some goto7, plan := plan, waitStop := true, stopLatch := true }

/-- The camera fetching its shot. -/
def fetching : Camera := { head with state := .fetching, active := some goto7 }

/-- The camera in DIRECT. -/
def steered : Camera := { head with state := .direct, direct := some (at4 10000 500 12000 30000) }

/-- A ROAMING camera of the floor examples, margin 3,000, at a place. -/
def roamer (x y : Int) : Camera :=
  { resetCamera with
    state := .idle
    cfg :=
      { emptyConfig with
        kind := some .roaming, mask := 0x60, slew := 32, margin := 3000, floorLimit := 250
        axes := Vector.replicate 7 ⟨-1000000, 1000000, 300, 120⟩ }
    setpoints := #v[0, 0, 0, 0, 0, x, y] }

/-- A ROAMING camera waiting for the claim of x 1..8, y 0..2. -/
def roamerWaits : Camera :=
  { roamer 10000 6000 with
    state := .waiting, active := some goto7, waitFloor := true, claim := some ⟨1, 0, 8, 2⟩, held := some ⟨1, 0, 3, 2⟩ }

/-- An operation of the Shot Engine for camera 0. -/
def op (w : Work) (words : List (BitVec 16)) (written : Nat) : ShotOp := ⟨⟨0, 7, 9, w⟩, words, written, 1, false⟩

/-- The part with an operation in flight. -/
def engaged (o : ShotOp) (s : State := run) : State := { s with shot := ⟨[], some o, []⟩ }

/-- A capture. -/
def taking : Work := .capture (at4 1 2 3 4) 0x0F 5 6

/-- The seventeen words of shot 7 as fetched: VALID with PAN and TILT, duration 0, ramp 0, then the values. -/
def shot7 : List (BitVec 16) :=
  [0x8003, 0, 0, lowHalf 46000, highHalf 46000, lowHalf (-1500), highHalf (-1500), 0, 0, 0, 0, 0, 0, 0, 0, 0, 0]

/-! ## Checks of syntax -/

theorem test_wellFormed_refuses_open_word : (Instr.regionWriteRefused 0x0010 ⟨0, 3⟩).wellFormed = false := by decide
theorem test_wellFormed_accepts_refused_word : (Instr.regionWriteRefused 0x0800 ⟨0, 3⟩).wellFormed = true := by decide
theorem test_wellFormed_refuses_known_kind : (Instr.postUnknownKind 0 0 0 12 3).wellFormed = false := by decide
theorem test_wellFormed_accepts_unknown_kind : (Instr.postUnknownKind 0 0 0 13 3).wellFormed = true := by decide

/-- The table gives its rows no bits, so no word spells a command. -/
theorem test_decode_no_bits : decodeTableWord 16 0x1234 = none := by decide
theorem test_step_takes_front :
    step { run with pending := [.stopAssert, .stopRelease] } = exec .stopAssert { run with pending := [.stopRelease] } := rfl

/-! ## Operands -/

/-- Odd parity for each byte (R1): 0x0000 has both parity bits 1, and 0x0100 only the low byte's. -/
theorem test_parity_zero : goodParity 0 = 3 := by decide
theorem test_parity_high_one : goodParity 0x0100 = 1 := by decide
theorem test_pair_negative : pairInt 0xFFFF 0xFFFF = -1 ∧ lowHalf (-2) = 0xFFFE ∧ highHalf (-2) = 0xFFFF := by decide
theorem test_record_length : (recordWords 3 resetCamera).length = 64 := by decide

/-- The example of Chapter 1: PAN is clamped on both sides, TILT's Von down to its Voff, FOCUS's Von to 0. -/
theorem test_config_axes :
    axisConfigOf (-1500000000) 1200000000 2000000 3000 = ⟨-1073741824, 1073741823, 1048575, 3000⟩ ∧
      axisConfigOf (-200000) 200000 400 500 = ⟨-200000, 200000, 400, 400⟩ ∧ axisConfigOf 0 60000 800 (-10) = ⟨0, 60000, 800, 0⟩ := by
  decide

/-- The example's general fields: PEDESTAL keeps 0x001F of the mask, slew step 0 is 1, margin -5 is 0, ramp 40,000 is 32,767. -/
theorem test_config_fields :
    formedMask 2 0x7F = 0x1F ∧ slewOf 0 = 1 ∧ marginOf (-5) = 0 ∧ rampOf 40000 = 32767 ∧ tallyOf 2 = some 2 := by decide

/-! ## The move computation: the worked cases of Chapter 2 -/

theorem test_plan_case1 : planMove head.cfg head.setpoints request = .plan plan := by decide

/-- 20,000,000 counts at 300 a frame is TOO_LONG (R22). -/
theorem test_plan_too_long :
    planMove { head.cfg with axes := head.cfg.axes.set 0 ⟨-30000000, 30000000, 300, 120⟩ } (at4 0 0 0 0)
      { request with target := at4 20000000 0 0 0 } = .tooLong := by decide

theorem test_position_tick10 : movePositions plan 2560 = at4 10750 459 12000 30000 ∧ moveQ plan 2560 = 1365 := by decide
theorem test_position_tick70 : movePositions plan 17920 = at4 28000 (-500) 12000 30000 ∧ moveQ plan 17920 = 32768 := by decide
theorem test_position_tick121 : movePositions plan 30976 = at4 43292 (-1349) 12000 30000 ∧ moveNum plan 30976 = 290914304 := by decide

/-- Case 2: the tick after the HALT, and the one that brings the rate to 0. -/
theorem test_halt_tick71 :
    let k := advanceMove { moving with rt := 0 }
    k.rate = 224 ∧ k.p = 18144 ∧ k.setpoints = at4 28262 (-514) 12000 30000 ∧ k.q = 33245 := by decide
theorem test_halt_tick78 :
    let k := advanceMove { moving with rt := 0, rate := 32, p := 18816 }
    k.rate = 0 ∧ k.p = 18816 ∧ k.setpoints = at4 29050 (-558) 12000 30000 := by decide

/-- Case 3: the rate slews to the cap 102 and no further. -/
theorem test_cap_tick35 :
    let k := advanceMove { moving with rt := 102, rate := 128, p := 8384 }
    k.rate = 102 ∧ k.p = 8486 ∧ k.setpoints[0] = 16944 := by decide

/-- DIRECT 400 counts of PAN away: off air by Voff 300, on air by Von 120, with the stop latch by 0; 300 away: onto the target (R141). -/
theorem test_direct_step :
    let k := fun v : Int => { head with state := .direct, direct := some (at4 v 500 12000 30000) }
    (serviceCamera (k 10400)).setpoints[0] = 10300 ∧ (serviceCamera { k 10400 with onAir := true }).setpoints[0] = 10120 ∧
      (serviceCamera { k 9600 with stopLatch := true }).setpoints[0] = 10000 ∧ (serviceCamera (k 9700)).setpoints[0] = 9700 := by decide

/-- A push onto a full return stack drops the oldest record, and a RETURN with PUSH takes the top one before it pushes (R54, R97). -/
theorem test_stack_at_begin :
    let k := { head with stack := [at4 1 0 0 0, at4 2 0 0 0, at4 3 0 0 0, at4 4 0 0 0] }
    stackAtBegin { goto7 with push := true } k = [at4 10000 500 12000 30000, at4 1 0 0 0, at4 2 0 0 0, at4 3 0 0 0] ∧
      stackAtBegin { goto7 with kind := .ret, push := true } k = [at4 10000 500 12000 30000, at4 2 0 0 0, at4 3 0 0 0, at4 4 0 0 0] := by
  decide

/-- Case 4: FOCUS 0 to 10 in 3 frames, linear, and with RAMP 1. -/
theorem test_linear_case4 :
    let k : Plan := { plan with origin := at4 0 0 0 0, delta := at4 0 0 0 10, n := 3, r := 0, n' := 768, r' := 0, k := 768 }
    (movePositions k 256)[3] = 3 ∧ (movePositions k 512)[3] = 6 ∧ moveQ k 512 = 43690 := by decide
theorem test_ramped_case4 :
    let k : Plan := { plan with origin := at4 0 0 0 0, delta := at4 0 0 0 10, n := 3, r := 1, n' := 768, r' := 256, k := 262144 }
    (movePositions k 256)[3] = 2 ∧ (movePositions k 512)[3] = 7 ∧ (movePositions k 768)[3] = 10 := by decide

/-! ## The floor: the worked examples of Chapter 6 -/

/-- Camera 1 parks on cells 1..3 by 0..2, and its claim to (30,000, 6,000) covers 1..8 by 0..2. -/
theorem test_parked_rect : parkedRect run.floor 3000 10000 6000 = ⟨1, 0, 3, 2⟩ := by decide
theorem test_claim_rect :
    claimRect run.floor 3000 (roamer 10000 6000).setpoints (roamer 30000 6000).setpoints = ⟨1, 0, 8, 2⟩ := by decide

/-- A count far to the left of the map stands in the edge cell (R100). -/
theorem test_cell_clamped : cellOf 0 12 (-1) = 0 ∧ cellOf 0 12 1000000 = 31 ∧ cellOf 0 12 4096 = 1 := by decide

/-- Zone 5 of the example: bounds 9, 2, 6, 0 are the rectangle of x 6..9 and y 0..2. -/
theorem test_zone_rect : zoneRect ⟨#v[9, 2, 6, 0], .inactive, none⟩ = ⟨6, 0, 9, 2⟩ := by decide

/-! ## The adoption: the example of Chapter 1 -/

/-- The words an adoption of the example's camera reads: the general fields, then minimum, maximum, Voff, Von and home of each axis, then a
control word with VALID clear. -/
def adopted (zoomMax zoomHome liftHome : Int) : List (Option (BitVec 16)) :=
  let axis := fun v : List Int => v.flatMap fun x => [some (lowHalf x), some (highHalf x)]
  [some 2, some 0x7F, some 2, some 0] ++ axis [-5] ++ [some 300, some 40000]
    ++ axis [-1500000000, 1200000000, 2000000, 3000, 0] ++ axis [-200000, 200000, 400, 500, 0]
    ++ axis [5000, zoomMax, 1000, 250, zoomHome] ++ axis [0, 60000, 800, -10, 30000] ++ axis [0, 90000, 150, 100, liftHome] ++ [some 0]

theorem test_adoption_reads_done : adoptNext 3 (adopted 4000 4500 120000) = none := by decide
theorem test_adoption_first : adoptionCheck 3 ⟨1, adopted 4000 4500 120000, false, false⟩ false run.floor = (.configInvalid, 0) := by decide
theorem test_adoption_second : adoptionCheck 3 ⟨1, adopted 50000 4500 120000, false, false⟩ false run.floor = (.outOfLimits, 0x14) := by
  decide
theorem test_adoption_third :
    adoptionCheck 3 ⟨1, adopted 50000 5000 45000, false, false⟩ false run.floor = (.done, 0) ∧
      adoptedPositions (adopted 50000 5000 45000) = #v[0, 0, 5000, 30000, 45000, 0, 0] := by decide

/-! ## The commands, one event each -/

/-- A host read at the port, so that an event grants nothing. -/
def busy (s : State) : State := atPort (.host .nothing false) 0x10 (s := s)

/-- An own access at the port, so that a host access waits at the arbiter. -/
def owned (s : State) : State := atPort (.status .flags) 0x40 (some ⟨0, 3⟩) (s := s)

/-- Camera 0's result group after a command. -/
def resultOf (i : Instr) (s : State) : ResultGroup := ((after i s).cam 0).result

theorem test_resetAssert : ((after (.resetAssert false) (withK moving)).cam 0).state = .offline := by decide
theorem test_resetAssert_landed :
    (after (.resetAssert true) (atPort (.status .flags) 0x40 (some ⟨5, 3⟩))).read 0x40 = ⟨5, 3⟩ := by decide
theorem test_resetRelease :
    (after (.resetRelease 2) State.reset).port.cur = some ⟨.startupRead 0, 0x800000, none, none, true⟩ := by decide
theorem test_startupReadEnd :
    (after (.startupReadEnd (some (goodWord 100))) (atPort (.startupRead 2) 2 (s := { run with startup := .reading 2 }))).timer.tint
      = 500 := by decide
theorem test_startupWriteEnd :
    let t := after .startupWriteEnd (atPort (.startupWrite 1616) 0xFFF (some ⟨0, 3⟩) (s := { run with startup := .writing 1616 }))
    t.startup = .running ∧ t.timer.nextExpiry = some 2000 ∧ t.timer.sync = .free := by decide

/-- The write after the device status block is the probe result's, as 0, and its mark is cleared (R164). -/
theorem test_load_writes_the_probe_result :
    let t := after .startupWriteEnd (atPort (.startupWrite 63) 0x7F (some ⟨0, 3⟩)
      (s := { run with startup := .writing 63, stat := { run.stat with probeDue := true } }))
    t.port.cur = some ⟨.startupWrite 64, 0xC2, some (goodWord 0), none, true⟩ ∧ t.stat.probeDue = false := by decide

/-- In HOUSE mode the end of the load changes the sync state from FREE to SEEKING, and the sync group is due (R120). -/
theorem test_startupWriteEnd_house :
    let t := after .startupWriteEnd
      (atPort (.startupWrite 1616) 0xFFF (some ⟨0, 3⟩)
        (s := { run with startup := .writing 1616, timer := { run.timer with mode := .house } }))
    t.timer.sync = .seeking ∧ t.stat.syncDue = true := by decide

/-- A record of the load given up after a timeout keeps its older SEQ_CLOSE: the load goes on with camera 1's record (R170). -/
theorem test_load_passes_over_a_torn_record :
    let t := after (.memoryTimeout false)
      (atPort (.startupWrite 66) 0x801 (some ⟨0, 3⟩) (s := { run with startup := .writing 66 }))
    t.startup = .writing 129 ∧ t.stat.recordDue[0] = true := by decide

/-- An outside read that hits a FULL_GUARD entry with mask 0 is refused (R154, R151). -/
def guarded : State := { run with fences := run.fences.set 0 ⟨0, 0, .fullGuard, 255⟩ }
theorem test_hostRead_refused :
    let t := after (.hostRead 0x123456) guarded
    t.bus.ended = some ⟨0x123456, false, true, ⟨0, 3⟩⟩ ∧ t.stat.flags = 0x20 ∧ t.fences[0].hits = 255 := by decide
theorem test_hostWrite_bad_parity :
    let t := after (.hostWrite 0x123456 ⟨0, 2⟩) (owned run)
    t.stat.flags = 0x40 ∧ t.stat.capture = ⟨.passParity, false, 0x123456, ⟨0, 2⟩⟩ := by decide
theorem test_hostAccessEnd_read :
    (after (.hostAccessEnd (some (goodWord 7))) (busy run)).bus.ended = some ⟨0x10, false, false, goodWord 7⟩ := by decide
theorem test_hostAccessEnd_pair :
    (after (.hostAccessEnd none) (atPort (.host .nothing false) 0xC0 (some ⟨1, 2⟩) (some ⟨2, 2⟩))).port.cur
      = some ⟨.host .nothing false, 0xC1, some ⟨2, 2⟩, none, true⟩ := by decide
theorem test_memoryTimeout_read :
    let t := after (.memoryTimeout false) (busy run)
    t.bus.ended = some ⟨0x10, false, true, ⟨0xFFFF, 3⟩⟩ ∧ t.stat.flags = 0x80 := by decide
theorem test_regionWriteRefused :
    (after (.regionWriteRefused 0x42 (goodWord 1)) run).bus.ended = some ⟨0x42, true, true, goodWord 1⟩ := by decide
theorem test_flagsWordWrite :
    let t := after (.flagsWordWrite (goodWord 1)) { run with stat := { run.stat with flags := 0x003 } }
    t.stat.flags = 0x002 ∧ t.port.cur = some ⟨.host .nothing false, 0x40, some (goodWord 2), none, true⟩ := by decide
theorem test_maskWordWrite_unmasks :
    (after (.maskWordWrite (goodWord 0xFFFE)) { run with stat := { run.stat with flags := 0x001 } }).irq = true := by decide
theorem test_captureClearWrite :
    let t := after (.captureClearWrite (goodWord 9)) (owned { run with stat := { run.stat with capture := ⟨.memTimeout, true, 5, ⟨6, 3⟩⟩ } })
    t.stat.capture.cls = .empty ∧ t.bus.req.map Access.write = some (some ⟨0, 3⟩) := by decide
theorem test_missedFrameCounterWrite_bad :
    let t := after (.missedFrameCounterWrite ⟨0, 0⟩) (owned { run with timer := { run.timer with missed := 3 } })
    t.timer.missed = 3 ∧ t.bus.req.map Access.write = some (some (poisonWord 3)) := by decide
theorem test_fenceHitCounterWrite : (after (.fenceHitCounterWrite 0 (goodWord 77)) (owned guarded)).fences[0].hits = 0 := by decide
theorem test_fenceBoundWrite_high :
    (after (.fenceBoundWrite 0 1 (goodWord 0xAB12)) run).fences[0].base = 0x120000 := by decide
theorem test_fenceModeWrite : (after (.fenceModeWrite 7 (goodWord 0xFFFE)) run).fences[7].mode = .fullGuard := by decide
theorem test_probeLowHalfWrite_held :
    (after (.probeLowHalfWrite (goodWord 0x42)) run).bus.staging = some ⟨.probe, 0xC0, goodWord 0x42⟩ := by decide

/-- Every entry has mask 0 and matches; the address is in the device status block, area 2. -/
theorem test_probeHighHalfWrite :
    let t := after (.probeHighHalfWrite (goodWord 0)) (owned (holding .probe 0xC0 (goodWord 0x42)))
    t.stat.probe = 0x02FF ∧ t.bus.req.map Access.second = some (some (goodWord 0)) := by decide
theorem test_directSlotLowHalfWrite :
    (after (.directSlotLowHalfWrite 0 0 (goodWord 0xA120)) (withK head)).bus.staging
      = some ⟨.slot 0 0, 0xA30, goodWord 0xA120⟩ := by decide

/-- 500,000 is clamped to PAN's 400,000 and becomes the direct target. -/
theorem test_directSlotHighHalfWrite :
    let t := after (.directSlotHighHalfWrite 0 0 (goodWord 0x0007)) (owned (holding (.slot 0 0) 0xA30 (goodWord 0xA120) (withK steered)))
    (t.cam 0).direct = some (at4 400000 500 12000 30000) ∧
      t.bus.req = some ⟨.host .nothing false, 0xA30, some (goodWord 0x1A80), some (goodWord 6), true⟩ := by decide
theorem test_floorSlotWriteRefused :
    let t := after (.floorSlotWriteRefused 0 0 (goodWord 1)) (withK { roamer 0 0 with state := .direct, direct := some (at4 0 0 0 0) })
    (t.cam 0).blocked = 1 ∧ t.bus.ended = some ⟨0xA3A, true, true, goodWord 1⟩ := by decide
theorem test_setpointFrameWriteRefused :
    ((after (.setpointFrameWriteRefused 0 32 (goodWord 1)) (withK { head with blocked := 255 })).cam 0).blocked = 255 := by decide
theorem test_configBlockWrite :
    ((after (.configBlockWrite 0 127 (goodWord 1)) (owned (withK head))).cam 0).stale = true ∧
      ((after (.configBlockWrite 0 127 (goodWord 1)) (owned run)).cam 0).stale = false := by decide
theorem test_shotStoreWrite_overlaps_capture :
    (after (.shotStoreWrite 224 (goodWord 1)) (engaged (op taking [] 3) (owned (withK head)))).shot.op.map ShotOp.overlap = some true := by
  decide
theorem test_shotStoreWrite_other_record :
    (after (.shotStoreWrite 256 (goodWord 1)) (engaged (op taking [] 3) (owned (withK head)))).shot.op = some (op taking [] 3) := by decide
theorem test_zoneBoundWrite : (after (.zoneBoundWrite 15 3 (goodWord 40)) run).floor.zones[15].bounds = #v[0, 0, 0, 31] := by decide

/-- The part with zone 7 of the example: bounds 8, 2, 9, 4. -/
def zoned : State := { run with floor := { run.floor with zones := run.floor.zones.set 7 ⟨#v[8, 2, 9, 4], .inactive, none⟩ } }
theorem test_zoneApply :
    let t := after (.zoneApply 7 0 2) zoned
    gridAt t.floor.cells 9 4 = .blocked ∧ gridAt t.floor.cells 10 4 = .free ∧ t.floor.zones[7].status = .active := by decide
theorem test_zoneRemove :
    let t := after (.zoneRemove 7 0 3)
      { run with
        floor :=
          { run.floor with
            zones := run.floor.zones.set 7 ⟨#v[8, 2, 9, 4], .active, some ⟨8, 2, 9, 4⟩⟩
            cells := gridOf fun x y => if inRect ⟨8, 2, 9, 4⟩ x y then .blocked else .free } }
    gridAt t.floor.cells 9 4 = .free ∧ t.floor.zones[7].status = .inactive := by decide
theorem test_mailboxLatchWrite_bad :
    ((after (.mailboxLatchWrite 0 0 ⟨7, 3⟩) (owned (withK head))).cam 0).latches[0] = ⟨7, false⟩ := by decide

theorem test_goto :
    let t := after (.goto 0 5 0 (par 5 1)) (withK head)
    (t.cam 0).state = .fetching ∧ t.shot.op.map ShotOp.req = some ⟨0, 0, 5, .fetch⟩ := by decide
theorem test_goto_bad_arg :
    resultOf (.goto 0 5 0 (par 5 1)) (withK { head with latches := head.latches.set 0 ⟨64, true⟩ }) = ⟨5, 1, .badArg, 64⟩ := by decide
theorem test_ret_stack_empty : resultOf (.ret 0 5 0 (par 5 2)) (withK head) = ⟨5, 2, .stackEmpty, 0⟩ := by decide
theorem test_halt :
    let k := (after (.halt 0 5 0 (par 5 3)) (withK moving)).cam 0
    k.state = .halting ∧ k.rt = 0 ∧ k.rate = 256 ∧ k.result = ⟨5, 3, .done, 0⟩ := by decide
theorem test_resume_halted :
    let k := (after (.resume 0 5 0 (par 5 4)) (withK halted)).cam 0
    k.state = .moving ∧ k.rate = 0 ∧ k.rt = 256 ∧ k.halt = false := by decide
theorem test_resume_stop_active :
    resultOf (.resume 0 5 0 (par 5 4)) (withK halted { run with lines := { run.lines with stop := true } }) = ⟨5, 4, .stopActive, 0⟩ := by
  decide
theorem test_abandon_moving :
    let k := (after (.abandon 0 5 0 (par 5 5)) (withK moving)).cam 0
    k.state = .halting ∧ k.halt = true ∧ k.abandon = true := by decide
theorem test_abandon_waiting :
    let k := (after (.abandon 0 5 0 (par 5 5)) (withK waiting)).cam 0
    k.state = .idle ∧ k.resultCount = 2 ∧ k.result = ⟨5, 5, .done, 0⟩ := by decide
theorem test_override_clamped :
    let k := (after (.override 0 5 0 (par 5 6)) (withK { moving with latches := moving.latches.set 0 ⟨300, true⟩, onAir := true })).cam 0
    k.result = ⟨5, 6, .doneClamped, 256⟩ ∧ k.rt = 102 := by decide
theorem test_flush :
    resultOf (.flush 0 5 0 (par 5 7)) (withK { moving with queue := [goto7, goto7] }) = ⟨5, 7, .done, 2⟩ := by decide
theorem test_capture :
    (after (.capture 0 5 0 (par 5 8)) (withK head)).shot.op.map ShotOp.req
      = some ⟨0, 0, 5, .capture (at4 10000 500 12000 30000) 0x0F 0 0⟩ := by decide
theorem test_direct :
    let t := after (.direct 0 5 0 (par 5 9)) (withK head)
    (t.cam 0).direct = some (at4 10000 500 12000 30000) ∧
      t.port.cur = some ⟨.fill 0, 0xA30, some (goodWord 10000), some (goodWord 0), true⟩ := by decide
theorem test_release :
    let k := (after (.release 0 5 0 (par 5 10)) (withK steered)).cam 0
    k.state = .idle ∧ k.direct = none ∧ k.result = ⟨5, 10, .done, 0⟩ := by decide
theorem test_enable :
    let t := after (.enable 0 5 0 (par 5 11)) run
    (t.cam 0).state = .adopting ∧ t.port.cur = some ⟨.adoption 0, 0x400, none, none, true⟩ := by decide
theorem test_disable_moving :
    let k := (after (.disable 0 5 0 (par 5 12)) (withK moving)).cam 0
    k.state = .offline ∧ k.result = ⟨5, 12, .done, 1⟩ ∧ k.setpoints = at4 10000 500 12000 30000 := by decide
theorem test_postUnknownKind : resultOf (.postUnknownKind 0 5 0 13 (par 5 13)) run = ⟨5, 13, .badKind, 0⟩ := by decide
theorem test_post_faulty_command : resultOf (.halt 0 5 0 0) run = ⟨5, 3, .cueParity, 1⟩ := by decide

theorem test_adoptionReadEnd :
    let k : Camera := { resetCamera with state := .adopting, adoption := some ⟨1, [], false, false⟩ }
    (after (.adoptionReadEnd (some (goodWord 1))) (atPort (.adoption 0) 0x400 (s := { withK k with adoptQueue := [0] }))).port.cur
      = some ⟨.adoption 0, 0x401, none, none, true⟩ := by decide

/-- The last read of shot 7: the move of worked case 1 begins. -/
theorem test_fetchReadEnd :
    let k := (after (.fetchReadEnd (some (goodWord 0))) (engaged (op .fetch (shot7.take 16) 0) (atPort .fetch 0x40F1 (s := withK fetching)))).cam 0
    k.state = .moving ∧ k.plan = plan ∧ k.rate = 256 ∧ k.p = 0 := by decide
theorem test_fetchReadEnd_empty :
    resultOf (.fetchReadEnd (some (goodWord 0x7FFF))) (engaged (op .fetch [] 0) (atPort .fetch 0x40E0 (s := withK fetching)))
      = ⟨9, 1, .shotEmpty, 0⟩ := by decide
theorem test_captureWriteEnd :
    resultOf .captureWriteEnd (engaged (op taking [] 16) (atPort .capture 0x40E0 (some ⟨0, 3⟩) (s := withK head)))
      = ⟨9, 8, .done, 0⟩ := by decide
theorem test_writeOutWriteEnd :
    ((after .writeOutWriteEnd (atPort (.writeOut 0 .a true) 0xA00 (some ⟨0, 3⟩) (s := withK head))).cam 0).activeBank = .a := by decide
theorem test_directFillWriteEnd :
    (after .directFillWriteEnd (atPort (.fill 0) 0xA30 (some ⟨1, 2⟩) (some ⟨2, 2⟩))).port.cur
      = some ⟨.fill 0, 0xA31, some ⟨2, 2⟩, none, true⟩ := by decide
theorem test_statusWriteEnd :
    (after .statusWriteEnd (atPort (.status .flags) 0x40 (some ⟨1, 2⟩))).read 0x40 = ⟨1, 2⟩ := by decide

/-- A tick of worked case 1 at P = 17,920, and the last one. -/
def ticking : State := busy { run with timer := { run.timer with nextExpiry := some 2000 } }
theorem test_intervalTimerExpiry_moves :
    let t := after .intervalTimerExpiry (withK moving ticking)
    (t.cam 0).p = 18176 ∧ (t.cam 0).setpoints[0] = 28300 ∧ t.timer.nextExpiry = some 4000 := by decide
theorem test_intervalTimerExpiry_completes :
    let k := (after .intervalTimerExpiry (withK { moving with p := 35584 } ticking)).cam 0
    k.state = .idle ∧ k.setpoints = at4 46000 (-1500) 12000 30000 ∧ k.result = ⟨9, 1, .done, 0⟩ := by decide
theorem test_refEdge_divided :
    (after (.refEdge false 10) { run with timer := { run.timer with mode := .house, divider := 2, sync := .seeking } }).timer.divCount = 1 := by
  decide

/-- The eighth good interval, 1,750 after a point with Tint 2,000, locks and is a tick. -/
theorem test_refEdge_locks :
    let t := after (.refEdge false 3750)
      (busy { run with timer := { run.timer with mode := .house, sync := .seeking, lastPoint := some 2000, qualify := 7, lastTick := 2000 } })
    t.timer.sync = .locked ∧ t.timer.frame = 1 ∧ t.timer.nextExpiry = some 6250 := by decide
theorem test_floorTimeout :
    resultOf (.floorTimeout 0) (withK { roamerWaits with waitCount := 249 }) = ⟨9, 1, .floorTimeout, 0⟩ := by decide
theorem test_floorTimeout_early :
    after (.floorTimeout 0) (withK { roamerWaits with waitCount := 248 }) = withK { roamerWaits with waitCount := 248 } := rfl
theorem test_statusInterval :
    let t := after .statusInterval (busy { run with stat := { run.stat with count := 9 } })
    t.stat.count = 0 ∧ t.stat.syncDue = true := by decide

/-- Worked case 3: going on air brings RT to 102. -/
theorem test_tallyEvent :
    let t := after (.tallyEvent 4 true) (withK moving)
    (t.cam 0).onAir = true ∧ (t.cam 0).rt = 102 ∧ (t.cam 0).rate = 256 := by decide
theorem test_tallyEvent_other_line : (after (.tallyEvent 5 true) (withK moving)).cam 0 = moving := by decide
theorem test_stopAssert :
    let k := (after .stopAssert (withK moving)).cam 0
    k.state = .halted ∧ k.rate = 0 ∧ k.stopLatch = true := by decide
theorem test_stopRelease :
    let t := after .stopRelease (withK halted { run with pins := { run.pins with stopLow := true }, lines := { run.lines with stop := true } })
    t.stat.flags = 0x200 ∧ t.cam 0 = halted := by decide

/-- The floor example: camera 1's claim is denied while camera 4 holds cell (7, 1), and granted when it is free. -/
theorem test_claim_denied :
    let cells := gridOf fun x y => if x = 7 ∧ y = 1 then Cell.held 4 else .free
    (tryClaim 0 (withK roamerWaits { run with floor := { run.floor with cells := cells } })).1.cam 0 = roamerWaits := by decide
theorem test_claim_granted :
    let t := (tryClaim 0 (withK roamerWaits)).1
    (t.cam 0).state = .moving ∧ (t.cam 0).held = some ⟨1, 0, 8, 2⟩ ∧ gridAt t.floor.cells 8 2 = .held 0 := by decide

/-! ## Witnesses -/

/-- A good and a bad word. -/
def good : MWord := goodWord 1
def bad : MWord := ⟨0, 0⟩

theorem ready (s : State) (h : s.startup = .running) (hb : hostBusy s = false) (hq : s.bus.queue = []) (hs : s.bus.staging = none) :
    HostReady s := ⟨h, hb, hq, hs⟩

theorem outside {a : Addr} {s : State} (h : offsetOf s.base a = none) : Outside s a := by
  intro off e
  rw [e, offsetOf_addrOf] at h
  cases h

theorem completing {s : State} (a : Addr) (w : MWord) (e : OnEnd) (hm : s.mem = []) (h1 : s.startup = .running) (h2 : s.bus.queue = [])
    (h3 : s.bus.held = none) (h4 : s.bus.req = none) (h5 : s.bus.staging = none) (h6 : s.port.cur = none) : Completing s a w e :=
  ⟨by simp [MemoryForm, hm, memWf], h1, h2, h3, h4, h5, .inl h6⟩

/-- A post to camera 0 of the part with that camera. -/
theorem posting (k : Camera) (w : MWord) (s : State) (hm : s.mem = []) (h1 : s.startup = .running) (h2 : s.bus.queue = [])
    (h3 : s.bus.held = none) (h4 : s.bus.req = none) (h5 : s.bus.staging = none) (h6 : s.port.cur = none) (h : postFaults k w = 0) :
    Posting (withK k s) 0 w :=
  ⟨completing _ w _ hm h1 h2 h3 h4 h5 h6, by simpa [withK, State.cam] using h⟩

/-- The same on the part after its load. -/
theorem posts (k : Camera) (w : MWord) (h : postFaults k w = 0) : Posting (withK k) 0 w := posting k w run rfl rfl rfl rfl rfl rfl rfl h

/-- The COMMAND word of a kind with tag 5. -/
def command (kind : BitVec 4) : MWord := commandWord 5 0 kind (par 5 kind)

theorem witness_StepTakesTheFrontCommand : run.pending = [] := rfl

theorem witness_ResetClearsThePart :
    (MemoryForm (atPort (.status .flags) 0x40 (some good)) ∧
      (atPort (.status .flags) 0x40 (some good)).port.cur = some ⟨.status .flags, 0x40, some good, none, true⟩) ∧
    run.port.cur = none ∧ (busy run).port.cur = some ⟨.host .nothing false, 0x10, none, none, true⟩ := by
  and_intros <;> rfl

theorem witness_ResetReleaseStartsTheLoad :
    (State.reset.startup = .inReset ∧ State.reset.port.cur = none ∧ State.reset.bus.req = none ∧ State.reset.setp.writeOuts = [] ∧
      State.reset.setp.fills = [] ∧ State.reset.shot = ⟨[], none, []⟩) ∧ run.startup ≠ .inReset := by
  and_intros <;> first | rfl | decide

theorem witness_LoadTakesTheSettings : ∀ n ∈ [0, 12], ∀ w ∈ [good, bad], n < 13 ∧
    (atPort (.startupRead n) 0).port.cur = some ⟨.startupRead n, 0, none, none, true⟩ ∧
    (some w).getD ((atPort (.startupRead n) 0).read 0) = w ∧ (wordOk good = true ∧ wordOk bad = false) := by
  intro n hn w _
  refine ⟨?_, rfl, rfl, by decide, by decide⟩
  simp at hn; omega

/-- An ENABLE word of bad parity with bit 0 set. -/
def badEnable : MWord := ⟨1, 3⟩

/-- Such an ENABLE leaves its zone entry, whose bounds had good parity, not applied, and is captured (R115). -/
theorem test_load_bad_enable :
    let t := after (.startupReadEnd (some badEnable)) (atPort (.startupRead 57) 0x104
      (s := { run with startup := .reading 57, loadEntry := [good, good, good, good] }))
    t.floor.zones[0].status = .inactive ∧ t.stat.capture = ⟨.ownParity, true, 0x104, badEnable⟩ := by decide

theorem witness_LoadTakesTheEntries :
    (∀ f ∈ [(0 : Fin 8), 7], ∀ k ∈ [(0 : Fin 4), 3],
      (atPort (.startupRead (13 + 5 * f.val + k.val)) 0x80).port.cur = some ⟨.startupRead (13 + 5 * f.val + k.val), 0x80, none, none, true⟩) ∧
    wordOk bad = false ∧
    (∀ f ∈ [(0 : Fin 8), 7], ∀ ws ∈ [[good, good, good, good], [good, good, good, bad]],
      (atPort (.startupRead (13 + 5 * f.val + 4)) 0x84 (s := { run with loadEntry := ws })).port.cur
        = some ⟨.startupRead (13 + 5 * f.val + 4), 0x84, none, none, true⟩ ∧
      (atPort (.startupRead (13 + 5 * f.val + 4)) 0x84 (s := { run with loadEntry := ws })).loadEntry = ws ∧ wordOk good = true) ∧
    (∀ z ∈ [(0 : Fin 16), 15], ∀ k ∈ [(0 : Fin 4), 3],
      (atPort (.startupRead (53 + 5 * z.val + k.val)) 0x100).port.cur
        = some ⟨.startupRead (53 + 5 * z.val + k.val), 0x100, none, none, true⟩) ∧
    (∀ z ∈ [(0 : Fin 16), 15], ∀ w ∈ [goodWord 0, goodWord 1], ∀ ws ∈ [[good, good, good, good], [good, good, bad, good]],
      (atPort (.startupRead (53 + 5 * z.val + 4)) 0x104 (s := { run with loadEntry := ws })).port.cur
        = some ⟨.startupRead (53 + 5 * z.val + 4), 0x104, none, none, true⟩ ∧ wordOk w = true ∧
      (atPort (.startupRead (53 + 5 * z.val + 4)) 0x104).floor.zones[z].status = .inactive) ∧
    (∀ x y : Fin 32, isHeld (gridAt run.floor.cells x y) = false) ∧ (goodWord 0).data.getLsbD 0 = false ∧
    (goodWord 1).data.getLsbD 0 = true ∧ wordOk badEnable = false ∧ badEnable.data.getLsbD 0 = true := by
  refine ⟨fun _ _ _ _ => rfl, by decide, ?_, ?_, ?_, by decide, by decide, by decide, by decide, by decide⟩
  · intro f _ ws _; exact ⟨rfl, rfl, by decide⟩
  · intro z _ k _; rfl
  · intro z hz w hw ws _; refine ⟨rfl, ?_, ?_⟩
    · revert w; decide
    · revert z; decide

theorem witness_LoadWritesAndEnds :
    MemoryForm (atPort (.startupWrite 1615) 0xFFE (some good) (s := { run with startup := .writing 1615 })) ∧
    (atPort (.startupWrite 1615) 0xFFE (some good) (s := { run with startup := .writing 1615 })).port.cur
      = some ⟨.startupWrite 1615, 0xFFE, some good, none, true⟩ ∧
    (atPort (.startupWrite 1615) 0xFFE (some good) (s := { run with startup := .writing 1615 })).startup ≠ .running ∧
    (∀ i : StatusItem, loadItem 1616 = some (i, false) → itemDue i run.stat = false) ∧
    (∀ i : StatusItem, loadItem 66 = some (i, false) → itemDue i run.stat = false) ∧
    (atPort (.startupWrite 1616) 0xFFF (some good) (s := { run with startup := .writing 1616 })).port.cur
      = some ⟨.startupWrite 1616, 0xFFF, some good, none, true⟩ ∧
    (atPort (.startupWrite 1616) 0xFFF (some good) (s := { run with startup := .writing 1616 })).bus.queue = [] ∧
    ({ run with timer := { run.timer with mode := .house } } : State).timer.sync = .free := by
  refine ⟨rfl, rfl, by decide, ?_, ?_, rfl, rfl, rfl⟩
  · intro i h; simp [loadItem] at h
  · intro i h; simp only [loadItem] at h; cases h; decide

theorem witness_FencesJudgeOutsideAccesses :
    HostReady guarded ∧ HostReady run ∧ Outside guarded 0x010000 ∧ Outside guarded 0xFFFFFF ∧ (none : Option MWord).all wordOk = true ∧
    (∃ n : Fin 8, HitBy guarded.fences[n] 0x010000 false) ∧ (∀ n : Fin 8, ¬HitBy run.fences[n] 0x010000 false) ∧
    HitBy ⟨0, 0, .writeGuard, 0⟩ 0x010000 true ∧ ¬HitBy ⟨0, 0, .writeGuard, 0⟩ 0x010000 false ∧
    ¬HitBy ⟨0, 0x010000, .fullGuard, 0⟩ 0x010000 false := by
  refine ⟨?_, ?_, outside (by decide), outside (by decide), rfl, ⟨0, ?_⟩, ?_, ?_, ?_, ?_⟩
  · exact ready _ rfl (by decide) rfl rfl
  · exact ready _ rfl (by decide) rfl rfl
  all_goals (unfold HitBy Matches; decide)

theorem witness_PassedAccessesAndBadWords :
    HostReady run ∧
    (∀ off ∈ [0, 0x3F, 0x85, 0xBF, 0xC3, 0xFF, 0x106, 0x17F, 0x180, 0x1FF, 0x205, 0x27F, 0x280, 0x3FF, 0xA21, 0xA2F, 0xBFE, 0xBFF, 0x1000,
      0x3FFF, 0x8000, 0xFFFF], PassWord off) ∧
    run.startup = .running ∧ hostBusy run = false ∧ run.bus.queue = [] ∧ wordOk bad = false := by
  refine ⟨ready _ rfl (by decide) rfl rfl, ?_, rfl, rfl, rfl, rfl⟩
  unfold PassWord; decide

theorem witness_HostAccessEnds :
    (LastHost (busy run) ∧ (busy run).port.cur = some ⟨.host .nothing false, 0x10, none, none, true⟩) ∧
    (MemoryForm (atPort (.host .nothing false) 0x10 (some good)) ∧ LastHost (atPort (.host .nothing false) 0x10 (some good)) ∧
      (atPort (.host .nothing false) 0x10 (some good)).port.cur = some ⟨.host .nothing false, 0x10, some good, none, true⟩) ∧
    (LastHost (atPort (.host .nothing false) 0xC0 (some good) (some good)) ∧
      (atPort (.host .nothing false) 0xC0 (some good) (some good)).port.cur
        = some ⟨.host .nothing false, 0xC0, some good, some good, true⟩) ∧ run.port.cur = none ∧
    MemoryForm (busy run) ∧
    (atPort (.host (.post 0) false) 0x200 (some good)).port.cur = some ⟨.host (.post 0) false, 0x200, some good, none, true⟩ ∧
    (atPort (.host .nothing false) 0xC0 (some good) (some bad)).port.cur = some ⟨.host .nothing false, 0xC0, some good, some bad, true⟩ := by
  refine ⟨⟨⟨?_, ?_, ?_⟩, ?_⟩, ⟨?_, ⟨?_, ?_, ?_⟩, ?_⟩, ⟨⟨?_, ?_, ?_⟩, ?_⟩, ?_, ?_, ?_, ?_⟩ <;> rfl

theorem witness_OwnAccessTimesOut :
    MemoryForm run ∧ HostWaits run ∧
    (∀ o ∈ [Owner.writeOut 7 .a false, .fill 0, .capture, .startupRead 132, .fetch, .adoption 0, .status (.record 7), .startupWrite 64,
        .startupWrite 65, .startupWrite 128, .startupWrite 576, .startupWrite 577, .startupWrite 1615],
      (atPort o 0x123 (some good)).port.cur = some ⟨o, 0x123, some good, none, true⟩) ∧
    (engaged (op taking [] 0) (atPort .capture 0x40E4 (some good))).shot = ⟨[], some (op taking [] 0), []⟩ ∧
    (op taking [] 0).req.work ≠ .fetch ∧ (op .fetch [] 0).req.work = .fetch ∧ ((withK fetching).cam 0).state = .fetching ∧
    ((withK fetching).cam 0).active = some goto7 ∧ GotoNext ((withK fetching).cam 0) ∧
    (∃ u : State, MemoryForm u ∧ HostWaits u ∧ u.port.cur = some ⟨.fetch, 0x123, none, none, false⟩) ∧
    ((withK { resetCamera with state := .adopting, adoption := some ⟨1, [], true, false⟩ }).cam 0).adoption = some ⟨1, [], true, false⟩ ∧
    ({ run with startup := .writing 64 } : State).startup ≠ .running ∧ loadItem 64 = some (.probe, true) ∧
    loadItem 1615 = some (.cell 30 31, true) := by
  refine ⟨rfl, HostWaits.of_empty rfl, fun _ _ => rfl, rfl, by decide, rfl, rfl, rfl, GotoNext.of_empty rfl,
    ⟨{ run with port := { run.port with cur := some ⟨.fetch, 0x123, none, none, false⟩ } }, rfl, HostWaits.of_empty rfl, rfl⟩, rfl, by decide,
    by decide⟩

/-- A ROAMING camera in DIRECT. -/
def steeredRoamer : Camera := { roamer 0 0 with state := .direct, direct := some (at4 0 0 0 0) }

theorem witness_RefusedWritesEndWithABusError :
    HostReady (withK steeredRoamer) ∧ wordOk good = true ∧ ((withK steeredRoamer).cam 0).state = .direct ∧
    ((withK steeredRoamer).cam 0).cfg.kind = some .roaming ∧
    ∀ off ∈ [0x42, 0x47, 0x49, 0x4F, 0x58, 0x5F, 0x61, 0x7F, 0xC2, 0x105, 0x17D, 0x800, 0x9FF, 0xC00, 0xFFF], RefusedWord off := by
  refine ⟨ready _ rfl (by decide) rfl rfl, by decide, rfl, rfl, ?_⟩
  unfold RefusedWord; decide

theorem witness_MaskWordDrivesTheInterruptLine : HostReady run ∧ wordOk good = true ∧ wordOk bad = false :=
  ⟨ready _ rfl (by decide) rfl rfl, by decide, by decide⟩

theorem witness_ClearingWordsAreAltered : HostReady run ∧ wordOk good = true ∧ wordOk bad = false :=
  witness_MaskWordDrivesTheInterruptLine

theorem witness_WatchedWordsAreTaken :
    (HostReady (withK head) ∧ wordOk good = true ∧ wordOk bad = false ∧ ((withK head).cam 0).state ≠ .offline ∧
      ((withK head).cam 7).state = .offline) ∧
    ∀ n ∈ [(0 : Fin 8), 7], ∀ w ∈ [good, bad],
      Completing run (addrOf run.base (fenceOff n 4)) w (.fenceMode n) ∧
      Completing (atPort (.host (.fenceMode n) false) (addrOf run.base (fenceOff n 4)) (some w)) (addrOf run.base (fenceOff n 4)) w
        (.fenceMode n) := by
  refine ⟨⟨ready _ rfl (by decide) rfl rfl, by decide, by decide, by decide, by decide⟩, ?_⟩
  intro n _ w _
  exact ⟨completing _ _ _ rfl rfl rfl rfl rfl rfl rfl, ⟨rfl, rfl, rfl, rfl, rfl, rfl, .inr rfl⟩⟩

theorem witness_ProbePairFormsTheResult :
    run.startup = .running ∧ hostBusy run = false ∧ run.bus.queue = [] ∧ run.bus.staging = none ∧
    (holding .probe 0xC0 good).startup = .running ∧ hostBusy (holding .probe 0xC0 good) = false ∧
    (holding .probe 0xC0 good).bus.queue = [] ∧
    (holding .probe 0xC0 good).bus.staging = some ⟨.probe, addrOf (holding .probe 0xC0 good).base 0xC0, good⟩ ∧
    (holding .probe 0xC0 bad).bus.staging = some ⟨.probe, addrOf (holding .probe 0xC0 bad).base 0xC0, bad⟩ ∧
    wordOk good = true ∧ wordOk bad = false ∧ wordOk (goodWord 0) = true ∧
    (goodWord 0).data.extractLsb' 0 8 ++ good.data = addrOf run.base 1 ∧ Outside run (good.data.extractLsb' 0 8 ++ good.data) := by
  and_intros <;> first | rfl | decide | exact outside (by decide)

/-- The part with a slot half of camera 0 held. -/
def slotted (lo : MWord) (k : Camera) (a : Axis) : State := holding (.slot 0 a) (addrOf 0 (frameOff 0 (48 + 2 * a.val))) lo (withK k)

theorem witness_SlotPairIsClamped :
    (∀ lo ∈ [good, bad], ∀ k ∈ [steered, head, resetCamera], ∀ a ∈ [(0 : Axis), 3, 6],
      (slotted lo k a).startup = .running ∧ hostBusy (slotted lo k a) = false ∧ (slotted lo k a).bus.queue = [] ∧
      (slotted lo k a).bus.staging = some ⟨.slot 0 a, addrOf (slotted lo k a).base (frameOff 0 (48 + 2 * a.val)), lo⟩) ∧
    (∀ k ∈ [steered, head, resetCamera], (withK k).bus.staging = none ∧ ((withK k).cam 0).cfg.kind ≠ some .roaming) ∧
    wordOk good = true ∧ wordOk bad = false ∧ enabledState steered.state = true ∧ inMask steered.cfg.mask 3 = true ∧
    inMask steered.cfg.mask 6 = false ∧ enabledState resetCamera.state = false := by
  refine ⟨?_, ?_, by decide, by decide, by decide, by decide, by decide, by decide⟩
  · intro lo _ k _ a _; exact ⟨rfl, rfl, rfl, rfl⟩
  · decide

theorem witness_LowHalvesAreHeldOrInterrupted :
    (HostReady run ∧ HostReady (withK steered) ∧ enabledState ((withK steered).cam 0).state = true ∧
    inMask ((withK steered).cam 0).cfg.mask 0 = true ∧ inMask ((withK steered).cam 0).cfg.mask 3 = true ∧
    ¬(((withK steered).cam 0).state = .direct ∧ ((withK steered).cam 0).cfg.kind = some .roaming ∧ ((3 : Axis) = floorX ∨ (3 : Axis) = floorY))) ∧
    ((holding .probe 0xC0 good).startup = .running ∧ hostBusy (holding .probe 0xC0 good) = false ∧ (holding .probe 0xC0 good).bus.queue = [] ∧
      (holding .probe 0xC0 good).bus.staging = some ⟨.probe, 0xC0, good⟩ ∧ ((0xC2 : Addr) ≠ 0xC0 + 1) ∧ (some good).all wordOk = true) ∧
    ((slotted good head 0).startup = .running ∧ hostBusy (slotted good head 0) = false ∧
      (slotted good head 0).bus.staging = some ⟨.slot 0 0, 0xA30, good⟩) ∧
    ∃ u : State, MemoryForm u ∧ u.bus.queue = [] ∧ u.bus.req = none ∧ u.bus.held = some ⟨addrOf u.base 5, none⟩ ∧
      u.port.cur = some ⟨.host .nothing true, 0xC0, some good, none, true⟩ := by
  refine ⟨⟨ready _ rfl (by decide) rfl rfl, ready _ rfl (by decide) rfl rfl, ?_, ?_, ?_, ?_⟩, ?_, ?_, ?_⟩
  iterate 4 decide
  · and_intros <;> first | rfl | decide
  · and_intros <;> rfl
  · refine ⟨atPort (.host .nothing true) 0xC0 (some good) (s := { run with bus := { run.bus with held := some ⟨addrOf 0 5, none⟩ } }), ?_⟩
    and_intros <;> rfl

theorem witness_ShotStoreWriteOverlaps :
    HostReady run ∧ ShotQuiet run.shot ∧ run.shot.op = none ∧
    (∀ o ∈ [op taking [] 0, op .fetch [] 0, { op .fetch [] 0 with attempt := 4 }], HostReady (engaged o (withK fetching)) ∧
      ShotQuiet (engaged o (withK fetching)).shot ∧ (engaged o (withK fetching)).shot.op = some o ∧ o.req.shot < 64 ∧
      (224#14).toNat / 32 = 64 * o.req.cam.val + o.req.shot ∧ (255#14).toNat / 32 = 64 * o.req.cam.val + o.req.shot ∧
      (256#14).toNat / 32 ≠ 64 * o.req.cam.val + o.req.shot) ∧
    ((withK fetching).cam 0).state = .fetching ∧ ((withK fetching).cam 0).active = some goto7 ∧ ((withK fetching).cam 0).queue = [] ∧
    wordOk good = true := by
  refine ⟨ready _ rfl (by decide) rfl rfl, ⟨rfl, fun _ => rfl⟩, rfl, ?_, rfl, rfl, rfl, by decide⟩
  intro o ho
  simp only [List.mem_cons, List.not_mem_nil, or_false] at ho
  rcases ho with rfl | rfl | rfl <;>
    exact ⟨ready _ rfl rfl rfl rfl, ⟨rfl, fun h => by cases h⟩, rfl, by decide, by decide, by decide, by decide⟩

/-- The part of the zone tests, its entry 7 ACTIVE, or REFUSED_HELD, or with a cell of it held. -/
def zonedActive : State :=
  { run with
    floor :=
      { run.floor with
        zones := run.floor.zones.set 7 ⟨#v[8, 2, 9, 4], .active, some ⟨8, 2, 9, 4⟩⟩
        cells := gridOf fun x y => if inRect ⟨8, 2, 9, 4⟩ x y then .blocked else .free } }
def zonedRefused : State :=
  { run with floor := { run.floor with zones := run.floor.zones.set 7 ⟨#v[8, 2, 9, 4], .refusedHeld, none⟩ } }
def zonedHeld : State :=
  { zoned with floor := { zoned.floor with cells := gridOf fun x y => if x = 9 ∧ y = 4 then .held 6 else .free } }

/-- The ENABLE word with bit 0 set, and clear. -/
def enable1 (par : BitVec 2) : MWord := ⟨(0#15 ++ 1#1 : BitVec 16), par⟩
def enable0 (par : BitVec 2) : MWord := ⟨(0#15 ++ 0#1 : BitVec 16), par⟩

/-- Counts to the left of the origin, in the edge cells and past them; and the ends of a move in either order. -/
theorem witness_FloorRectanglesAreFormed :
    (∀ p ∈ [((-1 : Int), (-1 : Int)), (0, 0), (4095, 0), (4096, 1), (131071, 31), (131072, 32)],
      p.2 * 2 ^ 12 ≤ p.1 - (0#32).toInt ∧ p.1 - (0#32).toInt < (p.2 + 1) * 2 ^ 12) ∧
    (-9 * 2 ^ 0 ≤ -7 - (2#32).toInt ∧ -7 - (2#32).toInt < (-9 + 1) * 2 ^ 0) ∧ Between 10000 30000 10000 30000 ∧
    Between 30000 10000 10000 30000 ∧ inRect (parkedRect run.floor 3000 20000 6000) 5 1 = true := by
  refine ⟨by decide, by decide, ⟨.inl ⟨rfl, rfl⟩, by decide⟩, ⟨.inr ⟨rfl, rfl⟩, by decide⟩, by decide⟩

theorem witness_ZoneIsApplied :
    (∀ s ∈ [zoned, zonedActive, zonedHeld], ∀ p : BitVec 2,
      Completing s (addrOf s.base (zoneOff 7 4)) (enable1 p) (.zoneEnable 7)) ∧
    wordOk (enable1 2) = true ∧ wordOk (enable1 0) = false ∧ zonedActive.floor.zones[7].status = .active ∧
    zoned.floor.zones[7].status ≠ .active ∧ zonedHeld.floor.zones[7].status ≠ .active ∧
    (∃ x y : Fin 32, ∃ c : Cam, inRect (zoneRect zonedHeld.floor.zones[7]) x y = true ∧ gridAt zonedHeld.floor.cells x y = .held c) ∧
    (∀ (x y : Fin 32) (c : Cam), inRect (zoneRect zoned.floor.zones[7]) x y = true → gridAt zoned.floor.cells x y ≠ .held c) := by
  refine ⟨?_, by decide, by decide, by decide, by decide, by decide, ⟨9, 4, 6, by decide, by decide⟩, ?_⟩
  · intro s hs p
    simp only [List.mem_cons, List.not_mem_nil, or_false] at hs
    rcases hs with rfl | rfl | rfl <;> exact completing _ _ _ rfl rfl rfl rfl rfl rfl rfl
  · intro x y c _
    have h : gridAt zoned.floor.cells x y = .free := by revert x y; decide
    rw [h]; simp

theorem zonesHold_free (s : State) (h : ∀ x y, gridAt s.floor.cells x y = .free) (hz : ∀ z : Fin 16, s.floor.zones[z].status ≠ .active)
    (ha : ∀ z : Fin 16, s.floor.zones[z].applied = none) : ZonesHold s where
  blocked x y := by
    constructor
    · intro e; rw [h] at e; cases e
    · rintro ⟨z, e, _⟩; exact absurd e (hz z)
  applied z := by rw [ha z]; simpa using hz z

theorem zonesHold_active : ZonesHold zonedActive where
  blocked x y := by
    have h : gridAt zonedActive.floor.cells x y = .blocked ↔ inRect ⟨8, 2, 9, 4⟩ x y = true := by
      simp only [zonedActive, gridAt_gridOf]; split <;> simp_all
    rw [h]
    constructor
    · intro e; exact ⟨7, by decide, by simpa [zonedActive] using e⟩
    · rintro ⟨z, hz, e⟩
      have : z = 7 := (show ∀ z : Fin 16, zonedActive.floor.zones[z].status = .active → z = 7 by decide) z hz
      subst this; simpa [zonedActive] using e
  applied := by decide

theorem witness_ZoneIsRemoved :
    (∀ s ∈ [zoned, zonedActive, zonedRefused],
      (∀ p : BitVec 2, Completing s (addrOf s.base (zoneOff 7 4)) (enable0 p) (.zoneEnable 7)) ∧ ZonesHold s ∧
      ∀ c : Cam, inWaitingSet (s.cam c) = false) ∧
    wordOk (enable0 3) = true ∧ wordOk (enable0 0) = false ∧ zonedActive.floor.zones[7].status = .active ∧
    zoned.floor.zones[7].status = .inactive ∧ zonedRefused.floor.zones[7].status = .refusedHeld := by
  refine ⟨?_, by decide, by decide, by decide, by decide, by decide⟩
  intro s hs
  simp only [List.mem_cons, List.not_mem_nil, or_false] at hs
  rcases hs with rfl | rfl | rfl
  · exact ⟨fun _ => completing _ _ _ rfl rfl rfl rfl rfl rfl rfl, zonesHold_free _ (by decide) (by decide) (by decide), by decide⟩
  · exact ⟨fun _ => completing _ _ _ rfl rfl rfl rfl rfl rfl rfl, zonesHold_active, by decide⟩
  · exact ⟨fun _ => completing _ _ _ rfl rfl rfl rfl rfl rfl rfl, zonesHold_free _ (by decide) (by decide) (by decide), by decide⟩

theorem witness_UnknownKindIsRefused : ∀ kind ∈ [(0 : BitVec 4), 13, 14, 15], ∀ k ∈ [head, moving, resetCamera],
    (kind = 0 ∨ kind = 13 ∨ kind = 14 ∨ kind = 15) ∧ Posting (withK k) 0 (command kind) := by
  intro kind hk k hc
  refine ⟨by simpa using hk, posts k _ ?_⟩
  revert k; revert kind; decide

theorem witness_FaultyAndWrongPostsAreRefused :
    ((∀ (k : Camera), Completing (withK k) (addrOf (withK k).base (mailboxOff 0 0)) ⟨(5 : BitVec 8) ++ (0#4 ++ 1#4), 0⟩ (.post 0) ∧
      ShotQuiet (withK k).shot) ∧
    wordOk (commandWord 5 0 1 0) = false ∧ wordOk (command 1) = true ∧
    (∀ i < 16, (1#16).getLsbD i = true ↔
      (i = 0 ∧ wordOk (commandWord 5 0 1 0) = false) ∨ (∃ n : Fin 4, i = n.val + 1 ∧ ((withK head).cam 0).latches[n].good = false)) ∧
    (∀ i < 16, (0x10#16).getLsbD i = true ↔
      (i = 0 ∧ wordOk (command 1) = false) ∨
        (∃ n : Fin 4, i = n.val + 1 ∧ ((withK { head with latches := head.latches.set 3 ⟨0, false⟩ }).cam 0).latches[n].good = false))) ∧
    (∀ p ∈ [((1 : BitVec 4), resetCamera), (2, resetCamera), (3, head), (4, resetCamera), (4, { moving with state := .halting, abandon := true }),
      (5, head), (6, resetCamera), (7, resetCamera), (8, { resetCamera with state := .adopting }), (9, moving), (10, head), (11, head),
      (12, resetCamera)], Posting (withK p.2) 0 (command p.1) ∧ refusedIn p.1 ((withK p.2).cam 0)) := by
  refine ⟨⟨fun k => ⟨completing _ _ _ rfl rfl rfl rfl rfl rfl rfl, rfl, fun _ => rfl⟩, by decide, by decide, by decide, by decide⟩, ?_⟩
  intro p hp
  have h : postFaults p.2 (command p.1) = 0 ∧ refusedIn p.1 p.2 := by revert p; unfold refusedIn; decide
  exact ⟨posts _ _ h.1, h.2⟩

/-- The camera with a latch written. -/
def latched (k : Camera) (n : Fin 4) (v : BitVec 16) : Camera := { k with latches := k.latches.set n ⟨v, true⟩ }

/-- Four cues queued. -/
def full : Camera := { moving with queue := [goto7, goto7, goto7, goto7] }

/-- A cue that waits in a queue. -/
def next3 : Cue := { goto7 with tag := 3, arg := 3 }

/-- An IDLE camera's move, halted, of a ROAMING camera. -/
def roamerHalts : Camera :=
  { roamer 10000 6000 with state := .halted, halt := true, active := some goto7, plan := plan, held := some ⟨1, 0, 8, 2⟩ }

/-- The cue of a fetching, waiting, halted or halted ROAMING camera can be given up. -/
theorem givenUp : ∀ k ∈ [fetching, waiting, halted, roamerHalts], ∃ k' e g, CueGivenUp (withK k) 0 goto7 k' e g := by
  intro k hk
  simp only [List.mem_cons, List.not_mem_nil, or_false] at hk
  rcases hk with rfl | rfl | rfl | rfl
  · exact ⟨_, _, _, .fetching rfl⟩
  · exact ⟨_, _, _, .waiting rfl⟩
  · exact ⟨_, _, _, .halted rfl (by decide)⟩
  · exact ⟨_, _, _, .parked _ rfl rfl (by unfold NoneWaits; decide) rfl⟩

theorem cutsIn_of (k : Camera) (v : BitVec 16) (h : v.getLsbD 6 = true) (hl : (v.extractLsb' 0 2).toNat < 2) (ha : k.active = some goto7) :
    CutsIn (latched k 3 v) := ⟨by simpa [latched] using h, goto7, ha, by simpa [latched, goto7] using hl⟩

theorem witness_MoveCueIsJudgedAndQueued :
    ((Posting (withK (latched head 0 64)) 0 (command 1) ∧ 63 < ((withK (latched head 0 64)).cam 0).latches[0].value.toNat ∧
        ((withK (latched head 0 64)).cam 0).state ≠ .offline) ∧
      (Posting (withK (latched full 0 63)) 0 (command 1) ∧ ((withK (latched full 0 63)).cam 0).latches[0].value.toNat ≤ 63 ∧
        ((withK (latched full 0 63)).cam 0).queue.length = 4) ∧ Posting (withK full) 0 (command 2)) ∧
    (∀ kind ∈ [(1 : BitVec 4), 2], Posting (withK moving) 0 (command kind)) ∧ ((withK moving).cam 0).latches[0].value.toNat ≤ 63 ∧
    moving.state ≠ .offline ∧ moving.state ≠ .idle ∧ moving.queue.length < 4 ∧ ¬CutsIn moving ∧ ¬CutsIn (latched moving 3 0x0042) ∧
    (∀ k ∈ [moving, fetching, waiting, halted, roamerHalts], ∀ kind ∈ [(1 : BitVec 4), 2],
      Posting (withK (latched k 3 0x0041)) 0 (command kind) ∧ CutsIn (latched k 3 0x0041) ∧ (latched k 3 0x0041).state ≠ .offline ∧
      (latched k 3 0x0041).state ≠ .idle ∧ (latched k 3 0x0041).active = some goto7 ∧ (latched k 3 0x0041).stack = []) ∧
    (∀ k ∈ [fetching, waiting, halted, roamerHalts], ∃ k' e g, CueGivenUp (withK k) 0 goto7 k' e g) ∧ ShotQuiet run.shot ∧
    GotoNext { fetching with queue := [next3] } := by
  refine ⟨⟨⟨posts _ _ (by decide), by decide, by decide⟩, ⟨posts _ _ (by decide), by decide, by decide⟩, posts _ _ (by decide)⟩, ?_,
    by decide, by decide, by decide, by decide, ?_, ?_, ?_, givenUp, ⟨rfl, fun _ => rfl⟩, GotoNext.of_head rfl rfl⟩
  · intro kind hk; exact posts _ _ (by revert kind; decide)
  · rintro ⟨h, _⟩; revert h; decide
  · rintro ⟨_, q, h, hl⟩; cases h; revert hl; decide
  · intro k hk kind hc
    have h : ∀ k ∈ [moving, fetching, waiting, halted, roamerHalts], ∀ kind ∈ [(1 : BitVec 4), 2],
        postFaults (latched k 3 0x0041) (command kind) = 0 ∧ k.active = some goto7 ∧ k.state ≠ .offline ∧ k.state ≠ .idle ∧ k.stack = [] := by
      decide
    have h := h k hk kind hc
    exact ⟨posts _ _ h.1, cutsIn_of k _ (by decide) (by decide) h.2.1, h.2.2.1, h.2.2.2.1, h.2.1, h.2.2.2.2⟩

theorem witness_MoveCueIsTaken :
    Posting (withK (latched head 0 63)) 0 (command 1) ∧ (latched head 0 63).state = .idle ∧ (latched head 0 63).queue = [] ∧
    (latched head 0 63).active = none ∧ (latched head 0 63).latches[0].value.toNat ≤ 63 ∧ ShotQuiet run.shot ∧
    Posting (withK head (engaged (op taking [] 0))) 0 (command 1) ∧ ShotQuiet (engaged (op taking [] 0)).shot ∧
    (Posting (withK head) 0 (command 2) ∧ head.state = .idle ∧ head.queue = [] ∧ head.active = none ∧ head.stack = []) := by
  refine ⟨posts _ _ (by decide), rfl, rfl, rfl, by decide, ⟨rfl, fun _ => rfl⟩,
    posting _ _ _ rfl rfl rfl rfl rfl rfl rfl (by decide), ⟨rfl, fun h => by cases h⟩, posts _ _ (by decide), rfl, rfl, rfl, rfl⟩

/-- A camera with a record to return to. -/
def returning : Camera := latched { head with stack := [request.target] } 2 20

/-- A ROAMING camera with a record to return to. -/
def roamerReturns : Camera := latched { roamer 10000 6000 with stack := [(roamer 30000 6000).setpoints] } 2 20

/-- What a RETURN of a camera to the top of its stack plans. -/
def returnPlans (k : Camera) : Planned :=
  planMove k.cfg k.setpoints
    { target := k.stack.headD k.setpoints, duration := k.latches[1].value.toNat
      ramp := if k.latches[2].value = 65535 then k.cfg.ramp else clampNat 0 32767 k.latches[2].value.toNat
      onAir := k.latches[3].value.getLsbD 5 }

/-- Its plan of 20,000 counts of FLOOR_X at 300 with ramp 20: 87 frames. -/
def roamerPlan : Plan :=
  { origin := (roamer 10000 6000).setpoints, target := (roamer 30000 6000).setpoints, delta := #v[0, 0, 0, 0, 0, 20000, 0], detail := 0
    onAir := false, n := 87, r := 20, n' := 22272, r' := 5120, k := 175636480, c := 102 }

/-- The part with one cell of another kind. -/
def celled (v : Cell) : State := { run with floor := { run.floor with cells := gridOf fun x y => if x = 8 ∧ y = 2 then v else .free } }

theorem celled_cell (v : Cell) (x y : Fin 32) : gridAt (celled v).floor.cells x y = if x = 8 ∧ y = 2 then v else .free := by
  simp only [celled, gridAt_gridOf]

/-- The claim of x 1..8 by y 0..2 meets a BLOCKED cell, is denied for a cell of camera 7, and is granted when all is free. -/
theorem tries_keepOut : TryGives (celled .blocked).floor.cells 0 ⟨1, 0, 8, 2⟩ .keepOut := ⟨8, 2, by decide, by rw [celled_cell]; rfl⟩
theorem tries_denied : TryGives (celled (.held 7)).floor.cells 0 ⟨1, 0, 8, 2⟩ .denied := by
  refine ⟨fun x y _ => ?_, 8, 2, 7, by decide, by decide, by rw [celled_cell]; rfl⟩
  rw [celled_cell]; split <;> simp
theorem tries_granted : TryGives (celled .free).floor.cells 0 ⟨1, 0, 8, 2⟩ .granted := by
  intro x y _; rw [celled_cell]; split <;> exact .inl rfl

/-- A ROAMING camera whose axes travel one count a frame, with a record 1,000,000 counts away. -/
def slowRoamer : Camera :=
  latched
    { roamer 0 0 with
      stack := [(roamer 1000000 0).setpoints]
      cfg := { (roamer 0 0).cfg with axes := Vector.replicate 7 ⟨-1000000, 1000000, 1, 1⟩ } } 2 0

theorem witness_PlanningIsTaken :
    (∀ k ∈ [returning, { returning with stopLatch := true }, { returning with onAir := true }, { returning with stack := [head.setpoints] },
        { returning with cfg := { head.cfg with axes := head.cfg.axes.set 0 ⟨-400000, 400000, 300, 120⟩ } }],
      Posting (withK k) 0 (command 2) ∧ k.state = .idle ∧ k.queue = [] ∧ k.active = none ∧ k.stack ≠ [] ∧ k.cfg.kind ≠ some .roaming) ∧
    returnPlans returning = .plan plan ∧ returning.stopLatch = false ∧ returning.onAir = false ∧
    returnPlans { returning with stack := [head.setpoints] } = .noTravel 0 ∧
    returnPlans slowRoamer = .tooLong ∧
    (∀ v ∈ [Cell.free, .blocked, .held 7], Posting (withK roamerReturns (celled v)) 0 (command 2)) ∧ roamerReturns.state = .idle ∧
    roamerReturns.queue = [] ∧ roamerReturns.active = none ∧ roamerReturns.cfg.kind = some .roaming ∧
    returnPlans roamerReturns = .plan roamerPlan ∧
    claimRect run.floor roamerReturns.cfg.margin roamerPlan.origin roamerPlan.target = ⟨1, 0, 8, 2⟩ ∧
    TryGives (celled .blocked).floor.cells 0 ⟨1, 0, 8, 2⟩ .keepOut ∧ TryGives (celled (.held 7)).floor.cells 0 ⟨1, 0, 8, 2⟩ .denied ∧
    TryGives (celled .free).floor.cells 0 ⟨1, 0, 8, 2⟩ .granted ∧
    ((roamerPlan.delta[floorX] ≠ 0 ∨ roamerPlan.delta[floorY] ≠ 0) ∧
      ∃ x y : Fin 32, inRect ⟨1, 0, 8, 2⟩ x y = true ∧ gridAt (celled .free).floor.cells x y ≠ .held 0) := by
  refine ⟨?_, by decide, rfl, rfl, by decide, by decide, ?_, rfl, rfl, rfl, rfl, by decide, by decide, tries_keepOut, tries_denied, tries_granted,
    .inl (by decide), 1, 0, by decide, by rw [celled_cell]; decide⟩
  · intro k hk
    have h : postFaults k (command 2) = 0 ∧ k.state = .idle ∧ k.queue = [] ∧ k.active = none ∧ k.stack ≠ [] ∧ k.cfg.kind ≠ some .roaming := by
      revert k; decide
    exact ⟨posts _ _ h.1, h.2⟩
  · intro v _; exact posting _ _ _ rfl rfl rfl rfl rfl rfl rfl (by decide)

/-- Stages 1 and 2 of the worked case leave its targets and an empty mask; with a target past PAN's limit, the mask of PAN. -/
theorem stages_case1 : StagesGive head.cfg head.setpoints request plan.target 0 where
  absent := by decide
  present a ha := by
    refine ⟨request.target[a], ?_, ?_, ?_⟩
    · revert a; unfold Clamped; decide
    · revert a; decide
    · revert a; decide

/-- PAN's 36,000 counts at 300 a frame, beside 20 frames of ramp, need 140 frames. -/
theorem pan_frames (m : Nat) (h1 : request.ramp ≤ m)
    (h2 : (plan.target[(0 : Axis)] - head.setpoints[(0 : Axis)]).natAbs
      ≤ (if request.onAir = true then head.cfg.axes[(0 : Axis)].von else head.cfg.axes[(0 : Axis)].voff) * (m - request.ramp)) :
    140 ≤ m := by
  change 36000 ≤ 300 * (m - 20) at h2
  change 20 ≤ m at h1
  omega

theorem witness_PlannerStages :
    goto7.ramp ≠ 65535 ∧ StagesGive head.cfg head.setpoints request plan.target 0 ∧ Travels head.cfg head.setpoints plan.target 0 ∧
    Least (EnoughFrames head.cfg head.setpoints request plan.target) 140 ∧
    StagesGive head.cfg head.setpoints { request with target := head.setpoints } head.setpoints 0 ∧
    (∀ a : Axis, ¬Travels head.cfg head.setpoints head.setpoints a) := by
  refine ⟨by decide, stages_case1, by unfold Travels; decide, ⟨by unfold EnoughFrames Travels; decide, ?_⟩, ⟨by decide, ?_⟩, ?_⟩
  · rintro m ⟨_, h⟩
    obtain ⟨h1, h2⟩ := h 0 (by unfold Travels; decide)
    exact pan_frames m h1 h2
  · intro a ha
    refine ⟨head.setpoints[a], ?_, ?_, ?_⟩
    · revert a; unfold Clamped; decide
    · revert a; decide
    · revert a; decide
  · unfold Travels; decide

theorem witness_HaltSlowsTheMove : ∀ k ∈ [moving, halted], Posting (withK k) 0 (command 3) ∧ movingState k.state = true := by
  intro k hk
  have h : postFaults k (command 3) = 0 ∧ movingState k.state = true := by revert k; decide
  exact ⟨posts _ _ h.1, h.2⟩

theorem witness_ResumeClearsTheLatch :
    (∀ k ∈ [moving, halted, waiting, { waiting with waitTally := true }, head],
      Posting (withK k) 0 (command 4) ∧ enabledState k.state = true ∧ ¬(k.state = .halting ∧ k.abandon = true)) ∧
    run.lines.stop = false ∧ waiting.state = .waiting ∧ waiting.waitStop = true ∧ waiting.waitTally = false ∧ waiting.waitFloor = false ∧
    waiting.active = some goto7 ∧
    Posting (withK halted { run with lines := { run.lines with stop := true } }) 0 (command 4) := by
  refine ⟨?_, rfl, rfl, rfl, rfl, rfl, rfl, posting _ _ _ rfl rfl rfl rfl rfl rfl rfl (by decide)⟩
  intro k hk
  have h : postFaults k (command 4) = 0 ∧ enabledState k.state = true ∧ ¬(k.state = .halting ∧ k.abandon = true) := by revert k; decide
  exact ⟨posts _ _ h.1, h.2⟩

/-- The waiting ROAMING camera with STOP beside FLOOR. -/
def roamerStops : Camera := { roamerWaits with waitStop := true, stopLatch := true }

theorem witness_ResumeTriesTheClaim :
    (∀ v ∈ [Cell.free, .blocked, .held 7], Posting (withK roamerStops (celled v)) 0 (command 4)) ∧
    roamerStops.state = .waiting ∧ roamerStops.waitStop = true ∧ roamerStops.waitTally = false ∧ roamerStops.waitFloor = true ∧
    roamerStops.claim = some ⟨1, 0, 8, 2⟩ ∧ roamerStops.active = some goto7 ∧ GotoNext roamerStops ∧ ShotQuiet run.shot ∧
    TryGives (celled .blocked).floor.cells 0 ⟨1, 0, 8, 2⟩ .keepOut ∧ TryGives (celled (.held 7)).floor.cells 0 ⟨1, 0, 8, 2⟩ .denied ∧
    TryGives (celled .free).floor.cells 0 ⟨1, 0, 8, 2⟩ .granted := by
  refine ⟨?_, rfl, rfl, rfl, rfl, rfl, rfl, GotoNext.of_empty rfl, ⟨rfl, fun _ => rfl⟩, tries_keepOut, tries_denied, tries_granted⟩
  intro v _; exact posting _ _ _ rfl rfl rfl rfl rfl rfl rfl (by decide)

theorem witness_AbandonGivesUpTheCue :
    (∀ k ∈ [moving, { moving with state := .halting, halt := true }, fetching, waiting, halted, roamerHalts],
      Posting (withK k) 0 (command 5) ∧ activeState k.state = true ∧ k.active = some goto7 ∧ GotoNext k) ∧
    (∀ k ∈ [fetching, waiting, halted, roamerHalts], ∃ k' e g, CueGivenUp (withK k) 0 goto7 k' e g) ∧ ShotQuiet run.shot := by
  refine ⟨?_, givenUp, rfl, fun _ => rfl⟩
  intro k hk
  have h : postFaults k (command 5) = 0 ∧ activeState k.state = true ∧ k.active = some goto7 ∧ k.queue = [] := by revert k; decide
  exact ⟨posts _ _ h.1, h.2.1, h.2.2.1, GotoNext.of_empty h.2.2.2⟩

/-- Three cameras wait for floor as camera 0 leaves: camera 3 first by its level, its claim on the BLOCKED cell (9, 9); then camera 1, and
camera 2, whose claim meets camera 1's at x 3. -/
def examined : State :=
  let waits := fun (r : Rect) (l : BitVec 2) => { roamerWaits with active := some { goto7 with level := l }, claim := some r }
  { withK halted with
    cams := (((withK halted).cams.set 1 (waits ⟨1, 0, 3, 2⟩ 2)).set 2 (waits ⟨3, 0, 5, 2⟩ 2)).set 3 (waits ⟨9, 9, 9, 9⟩ 0)
    floor := { run.floor with cells := gridOf fun x y => if x = 9 ∧ y = 9 then .blocked else .free } }

/-- How the three tries come out. -/
def examTries : List ExamTry :=
  [⟨3, { goto7 with level := 0 }, ⟨9, 9, 9, 9⟩, .keepOut⟩, ⟨1, goto7, ⟨1, 0, 3, 2⟩, .granted⟩, ⟨2, goto7, ⟨3, 0, 5, 2⟩, .denied⟩]

theorem witness_ReleaseExamination :
    (∃ h, Releases examined (.disable 0 5 0 (par 5 12)) 0 (cellsLeft examined.floor 0) ∧
      (∀ x : Cam, x ≠ 0 → (inWaitingSet (examined.cam x) = true ↔ ∃ e ∈ examTries, e.cam = x)) ∧ examTries.Pairwise ExamBefore ∧
      (∀ e ∈ examTries, e.cam ≠ 0 ∧ (examined.cam e.cam).active = some e.cue ∧ (examined.cam e.cam).claim = some e.claim ∧
        GotoNext (examined.cam e.cam)) ∧ TriesGive (cellsLeft examined.floor 0) examTries h) ∧
    Releases (withK { resetCamera with state := .adopting }) (.disable 0 5 0 (par 5 12)) 0 run.floor.cells ∧
    (∃ g, Releases (withK roamerHalts) (.abandon 0 5 0 (par 5 5)) 0 g) ∧
    (∃ g, Releases zonedActive (.zoneRemove 7 0 3) 0 g) ∧ TriesGive run.floor.cells [] run.floor.cells := by
  refine ⟨⟨_, .disable 0 5 0 _ ?_ rfl, by decide, by unfold ExamBefore; decide, ?_, ?_, ?_, ?_, rfl⟩,
    .disableAdopting 0 5 0 _ (posts _ _ (by decide)) rfl, ⟨_, .abandon 0 5 0 _ (posts _ _ (by decide)) rfl rfl rfl⟩,
    ⟨_, .zone 7 0 3 0 (completing _ _ _ rfl rfl rfl rfl rfl rfl rfl) (by decide) (by decide) (by decide)⟩, rfl⟩
  · exact ⟨completing _ _ _ rfl rfl rfl rfl rfl rfl rfl, by decide⟩
  · intro e he
    have h : ∀ e ∈ examTries, e.cam ≠ 0 ∧ (examined.cam e.cam).active = some e.cue ∧ (examined.cam e.cam).claim = some e.claim ∧
        (examined.cam e.cam).queue = [] := by decide
    have h := h e he
    exact ⟨h.1, h.2.1, h.2.2.1, GotoNext.of_empty h.2.2.2⟩
  · exact ⟨9, 9, by decide, by simp [cellsLeft, examined]⟩
  · intro x y h
    simp only [cellsTried, cellsLeft, examined, gridAt_gridOf]
    have h9 : ¬(x = 9 ∧ y = 9) := by rintro ⟨rfl, rfl⟩; exact absurd h (by decide)
    simp [h9]
  · refine ⟨fun x y h => ?_, 3, 0, 1, by decide, by decide, ?_⟩
    · simp only [cellsTried, cellsLeft, examined, gridAt_gridOf]
      have h9 : ¬(x = 9 ∧ y = 9) := by rintro ⟨rfl, rfl⟩; exact absurd h (by decide)
      simp only [h9, if_false]
      repeat' split
      all_goals simp
    · simp [cellsTried, cellsLeft, examined, inRect]

theorem witness_OverrideAndFlush : (∀ k ∈ [head, moving], ∀ v ∈ [(0 : BitVec 16), 1, 256, 257],
    Posting (withK (latched k 0 v)) 0 (command 6) ∧ enabledState (latched k 0 v).state = true) ∧
    Posting (withK full) 0 (command 7) ∧ enabledState full.state = true := by
  refine ⟨?_, posts _ _ (by decide), by decide⟩
  intro k hk v hv
  simp only [List.mem_cons, List.not_mem_nil, or_false] at hk hv
  rcases hk with rfl | rfl <;> rcases hv with rfl | rfl | rfl | rfl <;> exact ⟨posts _ _ (by decide), by decide⟩

theorem witness_CaptureIsAsked :
    (∀ v ∈ [(63 : BitVec 16), 64], Posting (withK (latched head 0 v)) 0 (command 8)) ∧ enabledState head.state = true ∧ ShotQuiet run.shot ∧
    Posting (withK head (engaged (op taking [] 0))) 0 (command 8) ∧ ShotQuiet (engaged (op taking [] 0)).shot ∧
    (∃ r, (r ∈ (engaged (op taking [] 0)).shot.fifo ∨ ∃ o, (engaged (op taking [] 0)).shot.op = some o ∧ o.req = r) ∧ r.cam = 0 ∧
      r.work ≠ .fetch) ∧
    (∀ r, (r ∈ run.shot.fifo ∨ ∃ o, run.shot.op = some o ∧ o.req = r) → r.cam = 0 → r.work = .fetch) := by
  refine ⟨?_, by decide, ⟨rfl, fun _ => rfl⟩, posting _ _ _ rfl rfl rfl rfl rfl rfl rfl (by decide), ⟨rfl, fun h => by cases h⟩, ?_, ?_⟩
  · intro v hv
    simp only [List.mem_cons, List.not_mem_nil, or_false] at hv
    rcases hv with rfl | rfl <;> exact posts _ _ (by decide)
  · exact ⟨(op taking [] 0).req, .inr ⟨_, rfl, rfl⟩, rfl, by decide⟩
  · rintro r (h | ⟨o, h, _⟩) <;> cases h

theorem witness_DirectReleaseAndEnable :
    (Posting (withK head) 0 (command 9) ∧ head.state = .idle ∧ run.setp.fills = [] ∧ run.setp.writeOuts = [] ∧
      inMask head.cfg.mask 0 = true) ∧
    (∀ q ∈ [[], [next3]], Posting (withK { steered with queue := q }) 0 (command 10) ∧ steered.state = .direct ∧
      GotoNext { steered with queue := q }) ∧ ShotQuiet run.shot ∧
    Posting (withK resetCamera) 0 (command 11) ∧ resetCamera.state = .offline := by
  refine ⟨⟨posts _ _ (by decide), rfl, rfl, rfl, by decide⟩, ?_, ⟨rfl, fun _ => rfl⟩, posts _ _ (by decide), rfl⟩
  intro q hq
  simp only [List.mem_cons, List.not_mem_nil, or_false] at hq
  rcases hq with rfl | rfl
  · exact ⟨posts _ _ (by decide), rfl, GotoNext.of_empty rfl⟩
  · exact ⟨posts _ _ (by decide), rfl, GotoNext.of_head rfl rfl⟩

/-- A camera in ADOPTING that has read all but the last word of the example. -/
def adopting (ws : List (Option (BitVec 16))) (fault : Bool) : Camera :=
  { resetCamera with state := .adopting, adoption := some ⟨1, ws.dropLast, fault, false⟩ }

theorem witness_DisableTakesTheCameraOut :
    (Posting (withK (adopting [] false)) 0 (command 12) ∧ (adopting [] false).state = .adopting ∧
      (adopting [] false).adoption = some ⟨1, [], false, false⟩ ∧ NoneWaits 0 (withK (adopting [] false))) ∧
    (Posting (withK moving) 0 (command 12) ∧ enabledState moving.state = true ∧ moving.state ≠ .offline ∧ NoneWaits 0 (withK moving) ∧
      ShotQuiet run.shot ∧ ∀ r : ShotReq, Outstanding run.shot r → r.cam = 0 → r.work = .fetch) ∧
    (∀ w ∈ [Work.fetch, taking], Posting (withK fetching (engaged (op w [] 0))) 0 (command 12) ∧ enabledState fetching.state = true ∧
      NoneWaits 0 (withK fetching (engaged (op w [] 0))) ∧ ShotQuiet (engaged (op w [] 0)).shot) ∧
    (∀ r : ShotReq, Outstanding (engaged (op .fetch [] 0)).shot r → r.cam = 0 → r.work = .fetch) ∧
    Outstanding (engaged (op taking [] 0)).shot (op taking [] 0).req ∧ (op taking [] 0).req.cam = 0 ∧ (op taking [] 0).req.work ≠ .fetch ∧
    ∀ r' : ShotReq, Outstanding (engaged (op taking [] 0)).shot r' → r'.cam = 0 → r'.work ≠ .fetch → r' = (op taking [] 0).req := by
  refine ⟨⟨posts _ _ (by decide), rfl, rfl, ?_⟩, ⟨posts _ _ (by decide), by decide, by decide, ?_, ⟨rfl, fun _ => rfl⟩, ?_⟩, ?_, ?_,
    .inr ⟨_, rfl, rfl⟩, rfl, by decide, ?_⟩
  · unfold NoneWaits; decide
  · unfold NoneWaits; decide
  · rintro r (h | ⟨o, h, _⟩) <;> cases h
  · intro w _
    refine ⟨posting _ _ _ rfl rfl rfl rfl rfl rfl rfl (by decide), rfl, ?_, rfl, fun h => by cases h⟩
    exact (show ∀ d : Cam, d ≠ 0 → inWaitingSet ((withK fetching).cam d) = false by decide)
  · rintro r (h | ⟨o, h, rfl⟩) _ <;> cases h; rfl
  · rintro r (h | ⟨o, h, rfl⟩) _ _ <;> cases h; rfl

/-- The words of a ROAMING camera with the two floor axes: limits 0 to 100,000, home 10,000. -/
def adoptedRoamer : List (Option (BitVec 16)) :=
  let axis := fun v : List Int => v.flatMap fun x => [some (lowHalf x), some (highHalf x)]
  [some 3, some 0x60, some 8, some 1] ++ axis [3000] ++ [some 0, some 0] ++ axis [0, 100000, 300, 120, 10000]
    ++ axis [0, 100000, 300, 120, 10000] ++ [some 0]

/-- The part with an adoption of camera 0 reading its last word. -/
def adopts (ws : List (Option (BitVec 16))) (fault : Bool) (s : State := run) : State :=
  atPort (.adoption 0) 0xA00 (s := { withK (adopting ws fault) s with adoptQueue := [0] })

theorem witness_AdoptionReadEnds :
    (∀ ws ∈ [[none], adopted 4000 4500 120000, adopted 50000 4500 120000, adopted 50000 5000 45000, adoptedRoamer], ∀ f ∈ [true, false],
      HostWaits (adopts ws f) ∧ (adopts ws f).port.cur = some ⟨.adoption 0, 0xA00, none, none, true⟩ ∧
      ((adopts ws f).cam 0).adoption = some ⟨1, ws.dropLast, f, false⟩ ∧ ((adopts ws f).cam 0).queue = []) ∧
    (adoptNext 0 [none]).isSome = true ∧ (some (goodWord 0)).getD (run.read 0xA00) = goodWord 0 ∧ wordOk (goodWord 0) = true ∧
    wordOk bad = false ∧
    (∀ ws ∈ [adopted 4000 4500 120000, adopted 50000 4500 120000, adopted 50000 5000 45000, adoptedRoamer],
      ws = ws.dropLast ++ [some 0] ∧ adoptNext 0 ws = none ∧ adoptNext 0 (ws.dropLast ++ [none]) = none) ∧
    configInvalid (adopted 4000 4500 120000) = true ∧
    (configInvalid (adopted 50000 4500 120000) = false ∧ outOfLimits (adopted 50000 4500 120000) = 0x14) ∧
    (configInvalid (adopted 50000 5000 45000) = false ∧ outOfLimits (adopted 50000 5000 45000) = 0 ∧
      (pendingConfig (adopted 50000 5000 45000)).kind ≠ some .roaming) ∧
    (configInvalid adoptedRoamer = false ∧ outOfLimits adoptedRoamer = 0 ∧ (pendingConfig adoptedRoamer).kind = some .roaming) ∧
    (∀ x y : Fin 32, gridAt run.floor.cells x y = .free) ∧
    (inRect (adoptedRect (celled (.held 7)).floor adoptedRoamer) 3 3 = true) := by
  refine ⟨?_, by decide, rfl, by decide, by decide, by decide, by decide, ⟨by decide, by decide⟩, ⟨by decide, by decide, by decide⟩,
    ⟨by decide, by decide, by decide⟩, by decide, by decide⟩
  intro ws _ f _
  exact ⟨HostWaits.of_empty rfl, rfl, rfl, rfl⟩

/-- The part with a read of a fetch at the port. -/
def fetches (words : List (BitVec 16)) : State := engaged (op .fetch words 0) (atPort .fetch 0x40E0 (s := withK fetching))

/-- The part with the last read of a fetch at the port, camera 0 and one cell as given. -/
def fetchesLast (k : Camera) (v : Cell) (words : List (BitVec 16)) : State :=
  engaged (op .fetch words 0) (atPort .fetch 0x40F1 (s := withK k (celled v)))

/-- A ROAMING camera fetching its shot, and the words of a shot of FLOOR_X alone but the last. -/
def roamerFetches : Camera := { roamer 10000 6000 with state := .fetching, active := some goto7 }
def floorShot (x : Int) : List (BitVec 16) := [0x8020, 0, 0] ++ List.replicate 10 0 ++ [lowHalf x, highHalf x, 0]

/-- What camera 0 plans from words and a last word of 0. -/
def gotoPlans (k : Camera) (words : List (BitVec 16)) : Planned :=
  planMove k.cfg k.setpoints (gotoRequest k goto7 (words ++ [(goodWord 0).data]))

/-- The seventeenth read: a GOTO that does not travel, one too long, one that waits by STOP, by TALLY, and the ROAMING one whose claim meets a
BLOCKED cell, is denied, and is granted. -/
theorem gotos_planned :
    (∀ k ∈ [fetching, { fetching with stopLatch := true }, { fetching with onAir := true }, roamerFetches], ∀ v : Cell, ∀ words,
      HostWaits (fetchesLast k v words) ∧ (fetchesLast k v words).port.cur = some ⟨.fetch, 0x40F1, none, none, true⟩ ∧
      (fetchesLast k v words).shot = ⟨[], some (op .fetch words 0), []⟩ ∧ (fetchesLast k v words).cam 0 = k ∧ k.state = .fetching ∧
      k.active = some goto7 ∧ GotoNext k) ∧
    (shot7.take 16).length = 16 ∧ (floorShot 30000).length = 16 ∧ gotoPlans fetching ([0x8000] ++ List.replicate 15 0) = .noTravel 0 ∧
    gotoPlans { roamerFetches with cfg := slowRoamer.cfg } (floorShot 1000000) = .tooLong ∧ gotoPlans fetching (shot7.take 16) = .plan plan ∧
    plan.onAir = false ∧ gotoPlans roamerFetches (floorShot 30000) = .plan roamerPlan ∧
    claimRect run.floor roamerFetches.cfg.margin roamerPlan.origin roamerPlan.target = ⟨1, 0, 8, 2⟩ ∧
    (∀ v, (fetchesLast roamerFetches v (floorShot 30000)).floor.cells = (celled v).floor.cells) := by
  refine ⟨?_, by decide, by decide, by decide, by decide, by decide, rfl, by decide, by decide, fun _ => rfl⟩
  intro k hk v words
  simp only [List.mem_cons, List.not_mem_nil, or_false] at hk
  rcases hk with rfl | rfl | rfl | rfl <;> exact ⟨HostWaits.of_empty rfl, rfl, rfl, rfl, rfl, rfl, GotoNext.of_empty rfl⟩

/-- Its planning cases are those of gotos_planned, with the tries of tries_keepOut, tries_denied and tries_granted. -/
theorem witness_FetchReadEnds :
    (∀ ws ∈ [[], shot7.take 1, shot7.take 15, shot7.take 16], HostWaits (fetches ws) ∧
      (fetches ws).port.cur = some ⟨.fetch, 0x40E0, none, none, true⟩ ∧ (fetches ws).shot = ⟨[], some (op .fetch ws 0), []⟩ ∧
      (op .fetch ws 0).req.cam = 0 ∧ ((fetches ws).cam 0).state = .fetching ∧ ((fetches ws).cam 0).active = some goto7 ∧
      ((fetches ws).cam 0).queue = []) ∧
    wordOk bad = false ∧ wordOk (goodWord 0x8000) = true ∧ (goodWord 0x8000).data.getLsbD 15 = true ∧
    wordOk (goodWord 0) = true ∧ (goodWord 0).data.getLsbD 15 = false ∧ (shot7.take 15).length < 16 ∧ (shot7.take 16).length = 16 ∧
    fetching.cfg.kind ≠ some .roaming ∧ fetching.stopLatch = false ∧ fetching.onAir = false ∧
    planMove fetching.cfg fetching.setpoints (gotoRequest fetching goto7 (shot7.take 16 ++ [(goodWord 0).data])) = .plan plan := by
  refine ⟨?_, by decide, by decide, by decide, by decide, by decide, by decide, by decide, by decide, rfl, rfl, by decide⟩
  intro ws _
  exact ⟨HostWaits.of_empty rfl, rfl, rfl, rfl, rfl, rfl, rfl⟩

theorem witness_OwnWritesEnd :
    (∀ n ∈ [0, 15, 16], MemoryForm (engaged (op taking [] n) (atPort .capture 0x40E0 (some good))) ∧
      HostWaits (engaged (op taking [] n) (atPort .capture 0x40E0 (some good))) ∧
      (engaged (op taking [] n) (atPort .capture 0x40E0 (some good))).port.cur = some ⟨.capture, 0x40E0, some good, none, true⟩ ∧
      (engaged (op taking [] n) (atPort .capture 0x40E0 (some good))).shot = ⟨[], some (op taking [] n), []⟩) ∧
    (∀ b ∈ [true, false], MemoryForm (atPort (.writeOut 0 .a b) 0xA00 (some good)) ∧ HostWaits (atPort (.writeOut 0 .a b) 0xA00 (some good)) ∧
      (atPort (.writeOut 0 .a b) 0xA00 (some good)).port.cur = some ⟨.writeOut 0 .a b, 0xA00, some good, none, true⟩) ∧
    (∀ h ∈ [none, some good], MemoryForm (atPort (.fill 0) 0xA30 (some good) h) ∧ HostWaits (atPort (.fill 0) 0xA30 (some good) h) ∧
      (atPort (.fill 0) 0xA30 (some good) h).port.cur = some ⟨.fill 0, 0xA30, some good, h, true⟩) ∧
    ∃ u : State, MemoryForm u ∧ HostWaits u ∧ u.port.cur = some ⟨.status .syncGroup, 0x44, some good, none, true⟩ ∧ u.startup = .running ∧
      u.stat.rest = [(0x46, 5)] ∧ u.stat.item = some .syncGroup ∧ u.setp.writeOuts = [] ∧ u.setp.fills = [] ∧ u.shot = ⟨[], none, []⟩ ∧
      u.adoptQueue = [] ∧ u.bus.req = none ∧ u.bus.queue = [] := by
  refine ⟨fun n _ => ⟨rfl, HostWaits.of_empty rfl, rfl, rfl⟩, fun b _ => ⟨rfl, HostWaits.of_empty rfl, rfl⟩,
    fun h _ => ⟨rfl, HostWaits.of_empty rfl, rfl⟩,
    atPort (.status .syncGroup) 0x44 (some good) (s := { run with stat := { run.stat with rest := [(0x46, 5)], item := some .syncGroup } }),
    ?_⟩
  and_intros <;> first | rfl | exact HostWaits.of_empty rfl

/-- The part with the second word of a fill at the port. -/
def fillEnds (s : State := run) : State := atPort (.fill 0) 0xA31 (some good) (s := s)

theorem fillEnding (s : State) (hm : s.mem = []) (hq : s.bus.queue = []) (hs : ShotQuiet s.shot) :
    FillEnding (fillEnds s) 0 0xA31 good :=
  ⟨by simp [MemoryForm, fillEnds, atPort, hm, memWf], rfl, hq, hs⟩

/-- The part with a write-out of camera 0 begun so far. -/
def writesOut (n : Nat) (bank : Bank) : State := { run with setp := { run.setp with writeOuts := [⟨0, bank, 0, at4 0 0 0 0, n⟩] } }

/-- The part in its load. -/
def loads (p : Startup) : State := { run with startup := p }

/-- The part with an adoption of camera 0 that has taken the words given. -/
def adoptsNext (ws : List (Option (BitVec 16))) : State :=
  { withK { resetCamera with state := .adopting, adoption := some ⟨1, ws, false, false⟩ } with adoptQueue := [0] }

theorem itemDue_run (i : StatusItem) : itemDue i run.stat = false := by
  cases i with
  | hits n | zone n | record n => revert n; decide
  | cell x y => revert x y; decide
  | _ => rfl

/-- The part with read n of the load at the port, and with write n. -/
def loadReads (n : Nat) : State := atPort (.startupRead n) 0 (s := loads (.reading n))
def loadWrites (n : Nat) : State := atPort (.startupWrite n) 0 (some good) (s := loads (.writing n))

/-- Reads at the edges of the settings, the fences and the zones. -/
theorem load_reads :
    LoadReads 0 0 ∧ LoadReads 12 12 ∧ LoadReads 13 0x80 ∧ LoadReads 52 0xBC ∧ LoadReads 53 0x100 ∧ LoadReads 132 0x17C := by
  refine ⟨.inl (by decide), .inl (by decide), .inr (.inl ⟨0, by decide, 0, by decide, rfl, rfl⟩),
    .inr (.inl ⟨4, by decide, 7, by decide, rfl, rfl⟩), .inr (.inr ⟨0, by decide, 0, by decide, rfl, rfl⟩),
    .inr (.inr ⟨4, by decide, 15, by decide, rfl, rfl⟩)⟩

/-- Writes of the device block, and at the edges of the records, the zone statuses and the floor image. -/
theorem load_writes (m : Nat) :
    LoadWrites (loadWrites m) 0 0x40 0 ∧ LoadWrites (loadWrites m) 1 0x41 0xFFF ∧ LoadWrites (loadWrites m) 2 0x42 1 ∧
    LoadWrites (loadWrites m) 37 0x65 0 ∧ LoadWrites (loadWrites m) 64 0xC2 0 ∧
    LoadWrites (loadWrites m) 65 0x800 1 ∧ LoadWrites (loadWrites m) 128 0x83F 0 ∧ LoadWrites (loadWrites m) 576 0x9FF 0 ∧
    LoadWrites (loadWrites m) 577 0x105 0 ∧ LoadWrites (loadWrites m) 592 0x17D 0 ∧ LoadWrites (loadWrites m) 593 0xC00 0 ∧
    LoadWrites (loadWrites m) 1616 0xFFF 0 := by
  refine ⟨.inl ⟨by decide, rfl, .inl ⟨.flags, ?_⟩⟩, .inl ⟨by decide, rfl, .inr (.inl ⟨rfl, rfl⟩)⟩,
    .inl ⟨by decide, rfl, .inr (.inr ⟨rfl, rfl⟩)⟩, .inl ⟨by decide, rfl, .inl ⟨.capture, ?_⟩⟩, .inr (.inl ⟨rfl, ?_⟩),
    .inr (.inr (.inl ⟨0, 0, by decide, rfl, rfl, ?_⟩)), .inr (.inr (.inl ⟨0, 63, by decide, rfl, rfl, ?_⟩)),
    .inr (.inr (.inl ⟨7, 63, by decide, rfl, rfl, ?_⟩)), .inr (.inr (.inr (.inl ⟨0, rfl, ?_⟩))), .inr (.inr (.inr (.inl ⟨15, rfl, ?_⟩))),
    .inr (.inr (.inr (.inr ⟨0, 0, rfl, ?_⟩))), .inr (.inr (.inr (.inr ⟨31, 31, rfl, ?_⟩)))⟩
  · exact (by decide : (0x40, (0 : BitVec 16)) ∈ itemTable run .flags)
  · exact (by decide : (0x65, (0 : BitVec 16)) ∈ itemTable run .capture)
  · exact (by decide : (0xC2, (0 : BitVec 16)) ∈ itemTable run .probe)
  · exact (by decide : (1 : BitVec 16) = recordWord (run.stat.seq[0] + 1) (run.cam 0) 0)
  · exact (by decide : (0 : BitVec 16) = recordWord run.stat.seq[0] (run.cam 0) 63)
  · exact (by decide : (0 : BitVec 16) = recordWord run.stat.seq[7] (run.cam 7) 63)
  · exact (by decide : (0x105, (0 : BitVec 16)) ∈ itemTable run (.zone 0))
  · exact (by decide : (0x17D, (0 : BitVec 16)) ∈ itemTable run (.zone 15))
  · exact (by decide : (0xC00, (0 : BitVec 16)) ∈ itemTable run (.cell 0 0))
  · exact (by decide : (0xFFF, (0 : BitVec 16)) ∈ itemTable run (.cell 31 31))

/-- The load alone asks at its reads and writes, and no group is given up. -/
theorem load_alone (n : Nat) :
    ((loadReads n).port.cur = some ⟨.startupRead n, 0, none, none, true⟩ ∧ LoadAlone (loadReads n)) ∧
    (MemoryForm (loadWrites n) ∧ (loadWrites n).port.cur = some ⟨.startupWrite n, 0, some good, none, true⟩ ∧ LoadAlone (loadWrites n) ∧
      ∀ i : StatusItem, loadItem (n + 1) = some (i, false) → itemDue i (loadWrites n).stat = false) :=
  ⟨⟨rfl, rfl, rfl, rfl, rfl⟩, rfl, rfl, ⟨rfl, rfl, rfl, rfl⟩, fun i _ => itemDue_run i⟩

/-- The statement's own ends of the load are load_alone, load_reads and load_writes. -/
theorem witness_OwnAccessesInOrder :
    (∀ n ∈ [0, 1, 2, 15, 16], ∀ k : Bank, FillEnding (fillEnds (writesOut n k)) 0 0xA31 good ∧ n ≤ 16) ∧
    (∀ o ∈ [op .fetch [] 0, op .fetch (shot7.take 2) 0, op .fetch (shot7.take 3) 0, op .fetch (shot7.take 16) 0, op taking [] 0, op taking [] 13,
        op taking [] 14, op taking [] 15, op taking [] 16],
      FillEnding (fillEnds (engaged o)) 0 0xA31 good ∧ (fillEnds (engaged o)).shot.op = some o ∧ o.written ≤ 16 ∧
      (o.req.work = .fetch ∨ o.req.work = .capture (at4 1 2 3 4) 0x0F 5 6)) ∧
    (∀ ws, FillEnding (fillEnds (adoptsNext ws)) 0 0xA31 good ∧ (fillEnds (adoptsNext ws)).shot.op = none ∧
      (fillEnds (adoptsNext ws)).startup = .running ∧ (fillEnds (adoptsNext ws)).adoptQueue = [0] ∧
      ((fillEnds (adoptsNext ws)).cam 0).adoption = some ⟨1, ws, false, false⟩) ∧
    (AdoptionReads 0 [] (configOff 0 0) ∧ AdoptionReads 0 (adoptedRoamer.take 7) (configOff 0 7) ∧
      AdoptionReads 0 (adoptedRoamer.take 8) (configOff 0 96) ∧ AdoptionReads 0 (adoptedRoamer.take 27) (configOff 0 121) ∧
      AdoptionReads 0 (adoptedRoamer.take 28) (frameOff 0 0) ∧
      AdoptionReads 0 (adoptedRoamer.take 28 ++ [some 0xC000]) (frameOff 0 29) ∧
      AdoptionReads 0 (adoptedRoamer.take 28 ++ [some 0x8000, some 0, some 0, some 0]) (frameOff 0 16)) ∧
    (∀ p : Startup, FillEnding (fillEnds (loads p)) 0 0xA31 good ∧ (fillEnds (loads p)).startup = p ∧
      (fillEnds (loads p)).shot.op = none) ∧
    ((0x40, (0 : BitVec 16)) ∈ itemTable run .flags ∧ (0xC2, (0 : BitVec 16)) ∈ itemTable run .probe ∧
      (0x105 + 8 * 15, zoneCode .inactive) ∈ itemTable run (.zone 15) ∧ (0xFFF, (0 : BitVec 16)) ∈ itemTable run (.cell 31 31)) := by
  refine ⟨?_, ?_, fun ws => ⟨fillEnding _ rfl rfl ⟨rfl, fun _ => rfl⟩, rfl, rfl, rfl, rfl⟩, ?_,
    fun p => ⟨fillEnding _ rfl rfl ⟨rfl, fun _ => rfl⟩, rfl, rfl⟩, by decide, by decide, by decide, by decide⟩
  · intro n hn k
    exact ⟨fillEnding _ rfl rfl ⟨rfl, fun _ => rfl⟩, by revert n; decide⟩
  · intro o ho
    exact ⟨fillEnding _ rfl rfl ⟨rfl, fun h => by cases h⟩, rfl, by revert o; decide, by revert o; decide⟩
  · refine ⟨.general (by decide), .general (by decide), .axis 5 0 ?_ ?_ ?_, .axis 6 9 ?_ ?_ ?_, .control ?_, .bank 5 0 ?_ ?_ ?_ ?_,
      .bank 6 1 ?_ ?_ ?_ ?_⟩ <;> decide

/-- The part with an access at the port, a request of the host or none, and the last grant an own access's or the host's. -/
def ends (o : Owner) (w : Option MWord) (own : Bool) (q : Option Access) (s : State) : State :=
  { s with
    bus := { s.bus with req := q }
    port := { s.port with cur := some ⟨o, 0x10, w, none, true⟩, lastOwn := own } }

/-- Each end that frees the port, with any request of the host and either last grant. -/
theorem port_frees (own : Bool) (q : Option Access) :
    PortFrees (ends (.fill 0) (some good) own q run) .directFillWriteEnd (ends (.fill 0) (some good) own q run) ∧
    (∀ b : Bool, ∃ u, PortFrees (ends (.writeOut 0 .a b) (some good) own q (writesOut 3 .a)) .writeOutWriteEnd u ∧ u.bus.req = q) ∧
    (∃ u, PortFrees (ends .capture (some good) own q (engaged (op taking [] 15))) .captureWriteEnd u ∧ u.bus.req = q) ∧
    (∃ u, PortFrees (ends .fetch none own q (engaged (op .fetch (shot7.take 15) 0))) (.fetchReadEnd (some good)) u ∧ u.bus.req = q) ∧
    (∃ u, PortFrees (ends (.adoption 0) none own q (adoptsNext [])) (.adoptionReadEnd (some good)) u ∧ u.bus.req = q) ∧
    (∀ n ∈ [0, 132], ∃ u, PortFrees (ends (.startupRead n) none own q (loads (.reading n))) (.startupReadEnd (some bad)) u ∧ u.bus.req = q) ∧
    (∀ n ∈ [0, 1615], ∃ u, PortFrees (ends (.startupWrite n) (some good) own q (loads (.writing n))) .startupWriteEnd u ∧ u.bus.req = q) ∧
    PortFrees (ends (.status .flags) (some good) own q run) .statusWriteEnd (ends (.status .flags) (some good) own q run) ∧
    PortFrees (ends (.host .nothing false) (some good) own none run) (.hostAccessEnd none)
      (ends (.host .nothing false) (some good) own none run) ∧
    PortFrees (ends (.host .nothing false) none own none run) (.hostAccessEnd (some good))
      (ends (.host .nothing false) none own none run) ∧
    ∃ u, PortFrees (ends (.host .nothing false) (some good) own none { run with bus := { run.bus with queue := [⟨addrOf run.base 0x20, none⟩] } })
      (.hostAccessEnd none) u ∧ u.bus.req.isSome = true := by
  have quiet : ShotQuiet run.shot := ⟨rfl, fun _ => rfl⟩
  have busyQuiet (o : ShotOp) : ShotQuiet (engaged o).shot := ⟨rfl, fun h => by cases h⟩
  refine ⟨.fill 0 _ good rfl rfl quiet, ?_, ⟨_, .capture (op taking [] 15) _ good rfl rfl (busyQuiet _) rfl (by decide), rfl⟩,
    ⟨_, .fetch (op .fetch (shot7.take 15) 0) _ good rfl rfl (busyQuiet _) rfl (by decide) (by decide) (fun h => by cases h), rfl⟩,
    ⟨_, .adoption 0 _ good ⟨1, [], false, false⟩ rfl rfl quiet rfl (by decide) (by decide), rfl⟩, ?_, ?_,
    .status .flags _ good rfl rfl quiet, .hostWrite _ good none rfl ⟨rfl, rfl, rfl⟩ quiet, .hostRead _ good rfl ⟨rfl, rfl, rfl⟩ quiet (by decide),
    ⟨_, .hostNext _ good none 0x20 rfl rfl rfl rfl rfl rfl quiet, rfl⟩⟩
  · intro b
    cases b
    · exact ⟨_, .writeOut 0 .a _ good rfl rfl quiet, rfl⟩
    · exact ⟨_, .control 0 .a _ good rfl rfl quiet, rfl⟩
  · intro n hn
    exact ⟨_, .loadRead n _ bad (by revert n; decide) rfl rfl quiet, rfl⟩
  · intro n hn
    exact ⟨_, .loadWrite n _ good (by revert n; decide) rfl rfl quiet, rfl⟩

theorem not_asks_0 {s : State} (h1 : s.setp.writeOuts = []) (h2 : s.setp.fills = []) : ¬Asks s 0 := by
  rintro (h | ⟨c, a, x, r, h⟩)
  · exact h h1
  · rw [h2] at h; cases h
theorem not_asks_1 {s : State} (h : s.shot.op = none) : ¬Asks s 1 := by
  show ¬s.shot.op.isSome = true
  simp [h]
theorem not_asks_2 {s : State} (h1 : s.startup = .running) (h2 : s.adoptQueue = []) : ¬Asks s 2 := by
  rintro (⟨n, h⟩ | ⟨n, h⟩ | ⟨_, c, r, ad, h, _⟩) <;> simp_all
theorem not_asks_3 {s : State} (h1 : s.stat = run.stat) : ¬Asks s 3 := by
  rintro ⟨_, ⟨h, _⟩ | ⟨i, h⟩⟩
  · rw [h1] at h; exact h rfl
  · rw [h1, itemDue_run] at h; cases h

/-- The part with the flags word due. -/
def flagsDue : State := { run with stat := { run.stat with flagsDue := true } }

/-- The ends are those of port_frees; at the end of a fill's write each rank asks as the first, or none does. -/
theorem witness_ArbiterChooses :
    (∀ (own : Bool) (q : Option Access), (ends (.fill 0) (some good) own q run).port.lastOwn = own ∧
      (ends (.fill 0) (some good) own q run).bus.req = q ∧ ∀ r : Fin 4, ¬Asks (ends (.fill 0) (some good) own q run) r) ∧
    (∀ (own : Bool) (q : Option Access) (r : Fin 4), ∃ s : State, PortFrees s .directFillWriteEnd s ∧ s.bus.req = q ∧ s.port.lastOwn = own ∧
      Asks s r ∧ ∀ r' : Fin 4, r' < r → ¬Asks s r') ∧
    HostReady run ∧ run.port.cur = none ∧ ShotQuiet run.shot ∧ ∀ r : Fin 4, ¬Asks run r := by
  have n (s : State) (h1 : s.setp = run.setp) (h2 : s.shot = run.shot) (h3 : s.startup = .running) (h4 : s.adoptQueue = [])
      (h5 : s.stat = run.stat) (r : Fin 4) : ¬Asks s r := by
    match r with
    | 0 => exact not_asks_0 (by rw [h1]; rfl) (by rw [h1]; rfl)
    | 1 => exact not_asks_1 (by rw [h2]; rfl)
    | 2 => exact not_asks_2 h3 h4
    | 3 => exact not_asks_3 h5
  refine ⟨fun own q => ⟨rfl, rfl, n _ rfl rfl rfl rfl rfl⟩, ?_, ready _ rfl (by decide) rfl rfl, rfl, ⟨rfl, fun _ => rfl⟩,
    n _ rfl rfl rfl rfl rfl⟩
  intro own q r
  match r with
  | 0 => exact ⟨ends (.fill 0) (some good) own q (writesOut 0 .a), .fill 0 _ good rfl rfl ⟨rfl, fun _ => rfl⟩, rfl, rfl,
      .inl (by simp [ends, writesOut]), fun r' h => absurd h (by omega)⟩
  | 1 =>
    refine ⟨ends (.fill 0) (some good) own q (engaged (op taking [] 0)), .fill 0 _ good rfl rfl ⟨rfl, fun h => by cases h⟩, rfl, rfl, rfl,
      fun r' h => ?_⟩
    match r', h with
    | 0, _ => exact not_asks_0 rfl rfl
  | 2 =>
    refine ⟨ends (.fill 0) (some good) own q (adoptsNext []), .fill 0 _ good rfl rfl ⟨rfl, fun _ => rfl⟩, rfl, rfl,
      .inr (.inr ⟨rfl, 0, [], _, rfl, rfl, by decide⟩), fun r' h => ?_⟩
    match r', h with
    | 0, _ => exact not_asks_0 rfl rfl
    | 1, _ => exact not_asks_1 rfl
  | 3 =>
    refine ⟨ends (.fill 0) (some good) own q flagsDue, .fill 0 _ good rfl rfl ⟨rfl, fun _ => rfl⟩, rfl, rfl, ⟨rfl, .inr ⟨.flags, rfl⟩⟩,
      fun r' h => ?_⟩
    match r', h with
    | 0, _ => exact not_asks_0 rfl rfl
    | 1, _ => exact not_asks_1 rfl
    | 2, _ => exact not_asks_2 rfl rfl

/-- The part with items due, the write of another at the port. -/
def reporting (f : StatusWriter → StatusWriter) : State := atPort (.status .probe) 0xC2 (some good) (s := { run with stat := f run.stat })

theorem witness_StatusWriterTakesTheFirstDueItem :
    (∀ f, MemoryForm (reporting f) ∧ (reporting f).startup = .running ∧
      (reporting f).port.cur = some ⟨.status .probe, 0xC2, some good, none, true⟩ ∧ (reporting f).setp.writeOuts = [] ∧
      (reporting f).setp.fills = [] ∧ (reporting f).shot = ⟨[], none, []⟩ ∧ (reporting f).adoptQueue = [] ∧
      (reporting f).bus.req = none ∧ (reporting f).bus.queue = []) ∧
    (reporting id).stat.rest = [] ∧ (∀ i : StatusItem, itemDue i (reporting id).stat = false) ∧
    (∀ j : StatusItem, (reporting (markItem j true)).stat.rest = [] ∧ itemDue j (reporting (markItem j true)).stat = true ∧
      ∀ i' : StatusItem, itemDue i' (reporting (markItem j true)).stat = true → itemRank j ≤ itemRank i') ∧
    itemRank (.record 7) < itemRank (.cell 0 0) ∧ itemRank (.zone 15) < itemRank (.record 0) := by
  refine ⟨fun f => ⟨rfl, rfl, rfl, rfl, rfl, rfl, rfl, rfl, rfl⟩, rfl, itemDue_run, ?_, by decide, by decide⟩
  intro j
  refine ⟨by cases j <;> rfl, ?_, ?_⟩
  · show itemDue j (markItem j true run.stat) = true
    rw [itemDue_markItem]; simp
  · intro i' h
    have h : itemDue i' (markItem j true run.stat) = true := h
    rw [itemDue_markItem, itemDue_run] at h
    simp at h; rw [h]

theorem witness_ConfigIsClamped :
    pendingConfig adoptedRoamer = pendingConfig adoptedRoamer ∧ inMask (pendingConfig adoptedRoamer).mask 6 = true ∧
    18 = 8 + 10 * axesBefore (pendingConfig adoptedRoamer).mask 6 ∧ Clamped 0 1048575 (takenPair adoptedRoamer (18 + 6)) 120 ∧
    inMask (pendingConfig (adopted 50000 5000 45000)).mask 0 = true ∧
    8 = 8 + 10 * axesBefore (pendingConfig (adopted 50000 5000 45000)).mask 0 ∧
    Clamped 0 1048575 (takenPair (adopted 50000 5000 45000) (8 + 6)) 3000 ∧
    inMask (pendingConfig adoptedRoamer).mask 0 = false ∧ 28 = 8 + 10 * (maskAxes (pendingConfig adoptedRoamer).mask).length ∧
    (takenWord adoptedRoamer 28).getLsbD 15 = false ∧ (takenWord (adoptedRoamer.take 28 ++ [some 0xC000, some 5]) 28).getLsbD 15 = true ∧
    inMask (pendingConfig (adoptedRoamer.take 28 ++ [some 0xC000, some 5])).mask 6 = true := by
  and_intros <;> first | rfl | decide

/-- A write-out under way. -/
def writing : WriteOut := ⟨0, .a, 0, at4 0 0 0 0, 3⟩

/-- The part at a tick: camera 0 as given, the sync state, the write-outs that stand and the status count. -/
def ticks (k : Camera) (sync : SyncState := .free) (outs : List WriteOut := []) (count : Nat := 0) : State :=
  { withK k ticking with
    timer := { ticking.timer with sync := sync }, setp := { run.setp with writeOuts := outs }
    stat := { run.stat with count := count } }

/-- A camera in the tick that completes its move, and in the one that brings it to rest. -/
def arriving : Camera := { moving with p := 35584 }
def resting (abandon : Bool) : Camera :=
  { moving with state := .halting, halt := true, abandon := abandon, rt := 0, rate := 32, p := 18816 }

/-- A state for each case of a tick: what stands still and what moves, a move that completes, a halt that comes to rest with and without the
abandon mark, a wait that is counted and one that ends, the tick serviced and missed, and the interval counted and reached. -/
theorem tick_cases :
    (∀ k ∈ [moving, steered, head], ¬CompletesAtTick k ∧ ¬RestsAtTick k ∧ inWaitingSet k = false) ∧
    (CompletesAtTick arriving ∧ arriving.active = some goto7 ∧ GotoNext arriving) ∧
    (∀ b : Bool, RestsAtTick (resting b) ∧ (resting b).abandon = b ∧ (resting b).active = some goto7 ∧ GotoNext (resting b)) ∧
    (inWaitingSet roamerWaits = true ∧ Nat.min 65535 (roamerWaits.waitCount + 1) < roamerWaits.cfg.floorLimit) ∧
    (∀ k ∈ [{ roamerWaits with waitCount := 249 }], inWaitingSet k = true ∧ k.cfg.floorLimit ≠ 0 ∧
      k.cfg.floorLimit ≤ Nat.min 65535 (k.waitCount + 1) ∧ k.active = some goto7 ∧ GotoNext k) ∧
    (∀ d : Cam, ¬EndsAtTick ((withK roamerWaits).cam d)) ∧
    (0 + 1 < run.stat.interval ∧ run.stat.interval ≤ 9 + 1 ∧ ticking.port.cur.isSome = true) := by
  refine ⟨by unfold CompletesAtTick RestsAtTick; decide, ⟨by unfold CompletesAtTick; decide, rfl, GotoNext.of_empty rfl⟩, ?_, by decide, ?_,
    by unfold EndsAtTick CompletesAtTick RestsAtTick; decide, by decide⟩
  · intro b
    exact ⟨by unfold RestsAtTick; revert b; decide, rfl, rfl, GotoNext.of_empty rfl⟩
  · intro k hk
    simp only [List.mem_cons, List.not_mem_nil, or_false] at hk
    subst hk
    exact ⟨by decide, by decide, by decide, rfl, GotoNext.of_empty rfl⟩

/-- Cameras wait for floor as camera 1, as given, gives its floor back but x 6..8: camera 0 and camera 3 in the last tick of their waits;
camera 4, first by its level, its claim on a BLOCKED cell; then camera 2, and camera 3, whose claim meets camera 2's. -/
def freed (k : Camera) : State :=
  let waits := fun (r : Rect) (l : BitVec 2) (n : Nat) =>
    { roamerWaits with active := some { goto7 with level := l }, claim := some r, waitCount := n }
  { withK (waits ⟨20, 20, 20, 20⟩ 0 249) ticking with
    cams := ((((withK (waits ⟨20, 20, 20, 20⟩ 0 249)).cams.set 1 k).set 2 (waits ⟨1, 0, 3, 2⟩ 2 0)).set 3 (waits ⟨3, 0, 5, 2⟩ 2 249)).set 4
      (waits ⟨9, 9, 9, 9⟩ 0 0)
    floor :=
      { run.floor with
        cells := gridOf fun x y => if x = 9 ∧ y = 9 then .blocked else if inRect ⟨1, 0, 8, 2⟩ x y then .held 1 else .free } }

/-- A ROAMING camera in its move's last tick, and one whose cue the stop line ends at the same place. -/
def roamerArrives : Camera :=
  { roamer 10000 6000 with
    state := .moving, active := some goto7, plan := roamerPlan, p := 22100, rate := 256, rt := 256, held := some ⟨1, 0, 8, 2⟩ }
def roamerStopsThere : Camera := { roamerArrives with state := .halting, halt := true, abandon := true, setpoints := (roamer 30000 6000).setpoints }

/-- The one examination that follows. -/
def freedRounds : List ExamRound :=
  [⟨1, [⟨4, { goto7 with level := 0 }, ⟨9, 9, 9, 9⟩, .keepOut⟩, ⟨2, goto7, ⟨1, 0, 3, 2⟩, .granted⟩, ⟨3, goto7, ⟨3, 0, 5, 2⟩, .denied⟩]⟩]

theorem freed_tries (k : Camera) : TriesOf (freed k) freedRounds := by
  intro r hr e he
  have h : ∀ r ∈ freedRounds, ∀ e ∈ r.tries, ((freed resetCamera).cam e.cam).active = some e.cue ∧
      ((freed resetCamera).cam e.cam).claim = some e.claim ∧ ((freed resetCamera).cam e.cam).queue = [] ∧
      (freed k).cam e.cam = (freed resetCamera).cam e.cam := by
    simp only [freedRounds, List.mem_cons, List.not_mem_nil, or_false, forall_eq, forall_eq_or_imp]
    exact ⟨⟨rfl, rfl, rfl, rfl⟩, ⟨rfl, rfl, rfl, rfl⟩, rfl, rfl, rfl, rfl⟩
  obtain ⟨h1, h2, h3, h4⟩ := h r hr e he
  rw [h4]; exact ⟨h1, h2, GotoNext.of_empty h3⟩

theorem freed_rounds (k : Camera) (parked : Cam → Rect) (waits : Cam → Cam → Prop) (hp : parked 1 = ⟨6, 0, 8, 2⟩)
    (hw : ∀ x : Cam, waits 1 x ↔ x = 2 ∨ x = 3 ∨ x = 4) :
    ∃ h, RoundsGive (freed k).floor parked waits [] (freed k).floor.cells freedRounds h := by
  refine ⟨_, ?_, by unfold ExamBefore; decide, _, ⟨?_, ?_, ?_, rfl⟩, rfl⟩
  · intro x
    rw [hw x]
    simp only [DeniedIn, List.not_mem_nil, false_implies, implies_true, and_true]
    revert x; decide
  · exact ⟨9, 9, by decide, by simp [cellsGivenBack, freed]⟩
  · intro x y h
    simp only [cellsTried, cellsGivenBack, freed, gridAt_gridOf, hp]
    have h9 : ¬(x = 9 ∧ y = 9) := by rintro ⟨rfl, rfl⟩; exact absurd h (by decide)
    have h6 : inRect ⟨6, 0, 8, 2⟩ x y = false := by revert x y; decide
    simp only [h9, h6, if_false, and_true]
    repeat' split
    all_goals simp_all
  · refine ⟨fun x y h => ?_, 3, 0, 2, by decide, by decide, ?_⟩
    · simp only [cellsTried, cellsGivenBack, freed, gridAt_gridOf, hp]
      have h9 : ¬(x = 9 ∧ y = 9) := by rintro ⟨rfl, rfl⟩; exact absurd h (by decide)
      simp only [h9, if_false]
      repeat' split
      all_goals simp_all
    · simp [cellsTried, cellsGivenBack, freed, inRect, hp]

/-- The premises of the release examinations of a tick, and of the stop line's assertion. -/
theorem freed_at_tick :
    (∀ d : Cam, EndsAtTick ((freed roamerArrives).cam d) ↔ ∃ r ∈ freedRounds, r.cam = d) ∧ freedRounds.Pairwise (·.cam < ·.cam) ∧
    (∀ d : Cam, EndsAtTick ((freed roamerArrives).cam d) ∨ WaitEnds ((freed roamerArrives).cam d) → GotoNext ((freed roamerArrives).cam d)) ∧
    TriesOf (freed roamerArrives) freedRounds ∧
    ∃ h, RoundsGive (freed roamerArrives).floor (fun d => parkedAtTick (freed roamerArrives).floor ((freed roamerArrives).cam d))
      (fun d x => inWaitingSet ((freed roamerArrives).cam x) = true ∧ ¬(x < d ∧ WaitEnds ((freed roamerArrives).cam x))) []
      (freed roamerArrives).floor.cells freedRounds h := by
  refine ⟨?_, by decide, ?_, freed_tries _, freed_rounds _ _ _ (by decide) ?_⟩
  · unfold EndsAtTick CompletesAtTick RestsAtTick; decide
  · intro d _
    exact GotoNext.of_empty ((show ∀ d : Cam, ((freed roamerArrives).cam d).queue = [] by decide) d)
  · unfold WaitEnds; decide

theorem freed_at_stop :
    (∀ d : Cam, StopEndsClaim ((freed roamerStopsThere).cam d) ↔ ∃ r ∈ freedRounds, r.cam = d) ∧
    (∀ d : Cam, StopEndsClaim ((freed roamerStopsThere).cam d) → GotoNext ((freed roamerStopsThere).cam d)) ∧
    TriesOf (freed roamerStopsThere) freedRounds ∧
    ∃ h, RoundsGive (freed roamerStopsThere).floor
      (fun d => parkedRect (freed roamerStopsThere).floor ((freed roamerStopsThere).cam d).cfg.margin
        ((freed roamerStopsThere).cam d).setpoints[floorX] ((freed roamerStopsThere).cam d).setpoints[floorY])
      (fun d x => inWaitingSet ((freed roamerStopsThere).cam x) = true ∧ d < x) [] (freed roamerStopsThere).floor.cells freedRounds h := by
  refine ⟨?_, ?_, freed_tries _, freed_rounds _ _ _ (by decide) (by decide)⟩
  · unfold StopEndsClaim; decide
  · intro d _
    exact GotoNext.of_empty ((show ∀ d : Cam, ((freed roamerStopsThere).cam d).queue = [] by decide) d)

/-- Camera 2 is granted the cells camera 1 gives back at its completion; camera 3, denied and at its limit, ends FLOOR_TIMEOUT after it, and
camera 0 before it (log 22). -/
def tickFreed : State := after .intervalTimerExpiry (freed roamerArrives)
theorem test_tick_grants : (tickFreed.cam 2).state = .moving ∧ (tickFreed.cam 4).result.code = .keepOut := by decide +kernel
theorem test_tick_expires : (tickFreed.cam 0).result.code = .floorTimeout ∧ (tickFreed.cam 3).result.code = .floorTimeout := by decide +kernel

/-- The release examinations' premises are those of freed_at_tick. -/
theorem witness_TimerExpiryIsATick :
    (∀ (k : Camera) (x : SyncState) (l : List WriteOut) (n : Nat),
      (ticks k x l n).startup = .running ∧ HostWaits (ticks k x l n) ∧ (ticks k x l n).timer.nextExpiry = some 2000 ∧
      (ticks k x l n).timer.sync = x ∧ (ticks k x l n).setp.writeOuts = l ∧ (ticks k x l n).stat.count = n ∧ (ticks k x l n).cam 0 = k) ∧
    (∀ k ∈ [moving, steered, head], ∀ c : Cam, inWaitingSet ((ticks k).cam c) = false ∧
      ¬CompletesAtTick ((ticks k).cam c) ∧ ¬RestsAtTick ((ticks k).cam c)) ∧ [writing] ≠ [] ∧ SyncState.free ≠ .locked := by
  refine ⟨fun k x l n => ⟨rfl, HostWaits.of_empty rfl, rfl, rfl, rfl, rfl, rfl⟩, ?_, by simp, by decide⟩
  unfold CompletesAtTick RestsAtTick; decide

/-- The part in HOUSE mode. -/
def house (sync : SyncState) (q d : Nat) (point : Option Nat) (last : Nat := 2000) : State :=
  busy { run with timer := { run.timer with mode := .house, sync := sync, qualify := q, divider := d, lastPoint := point, lastTick := last } }

/-- The bounds of a good interval from a point at 2,000 are 1,750 and 2,250; the guard of the locking point is 1,000 after the last tick. The
cases of the tick are those of tick_cases and freed_at_tick. -/
theorem witness_RefEdgeIsJudged :
    (∀ x q d p l, (house x q d p l).startup = .running ∧ HostWaits (house x q d p l) ∧ (house x q d p l).timer.mode = .house ∧
      (house x q d p l).timer.falling = false ∧ (house x q d p l).timer.sync = x ∧ (house x q d p l).timer.divider = d ∧
      (house x q d p l).timer.divCount = 0 ∧ (house x q d p l).timer.qualify = q ∧ (house x q d p l).timer.lastPoint = p ∧
      (house x q d p l).timer.lastTick = l ∧ (house x q d p l).timer.tint = 2000) ∧ run.timer.mode = .internal ∧
    (∀ t ∈ [3750, 4250], 2000 ≤ t ∧ 2000 - 2000 / 8 ≤ t - 2000 ∧ t - 2000 ≤ 2000 + 2000 / 8 ∧ 2000 / 2 ≤ t - 2000) ∧
    (∀ t ∈ [3749, 4251], ¬(2000 - 2000 / 8 ≤ t - 2000 ∧ t - 2000 ≤ 2000 + 2000 / 8)) ∧
    (3750 - 2750 ≥ 2000 / 2 ∧ 3750 - 2751 < 2000 / 2) ∧ Nat.min 8 (7 + 1) = 8 ∧ Nat.min 8 (8 + 1) = 8 ∧ Nat.min 8 (6 + 1) ≠ 8 := by
  refine ⟨?_, rfl, by decide, by decide, by decide, by decide, by decide, by decide⟩
  intro x q d p l
  exact ⟨rfl, HostWaits.of_empty rfl, rfl, rfl, rfl, rfl, rfl, rfl, rfl, rfl, rfl⟩

/-- The part with line 4 on air and camera 0 as given, on the cells of celled. -/
def onAir4 (v : Cell) (k : Camera) : State :=
  { withK k (celled v) with
    pins := { run.pins with tally := run.pins.tally.set 4 true }, lines := { run.lines with onAir := run.lines.onAir.set 4 true } }

/-- The waiting ROAMING camera of line 4 with TALLY beside FLOOR. -/
def roamerOnAir : Camera := { roamerWaits with cfg := { roamerWaits.cfg with tally := some 4 }, waitTally := true, onAir := true }

theorem witness_TallyEventReachesItsCameras :
    run.startup = .running ∧ HostWaits run ∧ (run.pins.tally[4]) ≠ true ∧
    true = (true != run.lines.polarity.getLsbD 4) ∧ true ≠ run.lines.onAir[4] ∧ enabledState moving.state = true ∧
    moving.cfg.tally = some 4 ∧ movingState moving.state = true ∧ waiting.state = .waiting ∧ waiting.cfg.tally = some 4 ∧
    head.state ≠ .waiting ∧ movingState head.state = false ∧
    (∀ v k, (onAir4 v k).startup = .running ∧ HostWaits (onAir4 v k) ∧ (onAir4 v k).pins.tally[4] ≠ false ∧
      false = (false != (onAir4 v k).lines.polarity.getLsbD 4) ∧ false ≠ (onAir4 v k).lines.onAir[4] ∧ (onAir4 v k).cam 0 = k) ∧
    (∀ k ∈ [{ waiting with waitStop := false, waitTally := true, onAir := true }, roamerOnAir], k.state = .waiting ∧
      enabledState k.state = true ∧ k.cfg.tally = some 4 ∧ k.waitTally = true ∧ k.waitStop = false ∧ k.active = some goto7) ∧
    roamerOnAir.waitFloor = true ∧ roamerOnAir.claim = some ⟨1, 0, 8, 2⟩ ∧ GotoNext roamerOnAir ∧
    (∀ v, ∀ d : Cam, d ≠ 0 → ((onAir4 v roamerOnAir).cam d).cfg.tally = some 4 → ((onAir4 v roamerOnAir).cam d).waitFloor = false) ∧
    TryGives (onAir4 .blocked roamerOnAir).floor.cells 0 ⟨1, 0, 8, 2⟩ .keepOut ∧
    TryGives (onAir4 (.held 7) roamerOnAir).floor.cells 0 ⟨1, 0, 8, 2⟩ .denied ∧
    TryGives (onAir4 .free roamerOnAir).floor.cells 0 ⟨1, 0, 8, 2⟩ .granted := by
  refine ⟨rfl, HostWaits.of_empty rfl, by decide, by decide, by decide, by decide, rfl, by decide, rfl, rfl, by decide, by decide,
    fun v k => ⟨rfl, HostWaits.of_empty rfl, by simp [onAir4], (by decide : false = (false != run.lines.polarity.getLsbD 4)),
      by simp [onAir4], rfl⟩, by decide, rfl, rfl, GotoNext.of_empty rfl, ?_,
    tries_keepOut, tries_denied, tries_granted⟩
  intro v
  exact (show ∀ d : Cam, d ≠ 0 → ((withK roamerOnAir).cam d).cfg.tally = some 4 → ((withK roamerOnAir).cam d).waitFloor = false by decide)

/-- The ROAMING camera whose cue the stop line ends. -/
def roamerAbandons : Camera := { roamerHalts with state := .halting, halt := true, abandon := true }

/-- The premises of its release examinations are those of freed_at_stop. -/
theorem witness_StopLineReachesEveryCamera :
    (∀ k : Camera, (withK k).startup = .running ∧ HostWaits (withK k) ∧ (withK k).pins.stopLow = false ∧ (withK k).lines.stop = false ∧
      (withK k).cam 0 = k) ∧
    resetCamera.state = .offline ∧ (adopting [] false).state = .adopting ∧ (adopting [] false).adoption = some ⟨1, [], false, false⟩ ∧
    waiting.state = .waiting ∧ inWaitingSet waiting = false ∧ roamerWaits.state = .waiting ∧ inWaitingSet roamerWaits = true ∧
    (∀ d : Cam, d < 0 → ¬StopEndsClaim ((withK roamerWaits).cam d)) ∧ moving.state = .moving ∧
    (resting false).state = .halting ∧ (resting false).abandon = false ∧
    (∀ k ∈ [resting true, roamerAbandons], k.state = .halting ∧ k.abandon = true ∧ k.active = some goto7 ∧ GotoNext k) ∧
    GotoNext { roamerAbandons with queue := [next3] } ∧ roamerAbandons.cfg.kind = some .roaming ∧
    (∀ d : Cam, d ≠ 0 → ¬StopEndsClaim ((withK roamerAbandons).cam d) ∧ inWaitingSet ((withK roamerAbandons).cam d) = false) ∧
    ∃ u : State, u.startup = .running ∧ HostWaits u ∧ u.pins.stopLow = true ∧ u.lines.stop = true := by
  refine ⟨fun k => ⟨rfl, HostWaits.of_empty rfl, rfl, rfl, rfl⟩, rfl, rfl, rfl, rfl, by decide, rfl, by decide,
    fun d h => absurd h (Fin.not_lt_zero d), rfl, rfl, rfl, ?_, GotoNext.of_head rfl rfl, rfl, by unfold StopEndsClaim; decide,
    { run with pins := { run.pins with stopLow := true }, lines := { run.lines with stop := true } }, rfl, HostWaits.of_empty rfl, rfl, rfl⟩
  intro k hk
  simp only [List.mem_cons, List.not_mem_nil, or_false] at hk
  rcases hk with rfl | rfl <;> exact ⟨rfl, rfl, rfl, GotoNext.of_empty rfl⟩

theorem witness_WaitLimitAndStatusInterval :
    (HostWaits (withK { roamerWaits with waitCount := 249 }) ∧ inWaitingSet roamerWaits = true ∧ roamerWaits.cfg.floorLimit = 250 ∧
      roamerWaits.active = some goto7 ∧ roamerWaits.queue = []) ∧
    ∃ u : State, u.startup = .running ∧ HostWaits u ∧ u.stat.count + 1 = u.stat.interval ∧ u.port.cur.isSome = true := by
  refine ⟨⟨HostWaits.of_empty rfl, by decide, rfl, rfl, rfl⟩, busy { run with stat := { run.stat with count := 9 } }, rfl,
    HostWaits.of_empty rfl, rfl, rfl⟩

/-- A plan, with a ramp and without (for the three statements on the arithmetic of a move). -/
theorem witness_PlanIsScaled :
    planMove head.cfg head.setpoints request = .plan plan ∧ 0 < plan.r ∧
    ∃ pl, planMove head.cfg head.setpoints { request with ramp := 0 } = .plan pl ∧ pl.r = 0 :=
  ⟨test_plan_case1, by decide, _, rfl, by decide⟩
theorem witness_NumeratorFollowsProgress : planMove head.cfg head.setpoints request = .plan plan ∧ plan.r' < 5121 ∧ 5121 ≤ plan.n' - plan.r' :=
  ⟨test_plan_case1, by decide, by decide⟩
theorem witness_MoveStaysOnItsWay :
    planMove head.cfg head.setpoints request = .plan plan ∧ plan.origin[(0 : Axis)] ≤ plan.target[(0 : Axis)] ∧
    plan.target[(1 : Axis)] ≤ plan.origin[(1 : Axis)] ∧ 0 ≤ plan.delta[(0 : Axis)] ∧ plan.delta[(1 : Axis)] < 0 :=
  ⟨test_plan_case1, by decide, by decide, by decide, by decide⟩

/-- The part with a camera in a move, a write of the Status Writer at the port, and a command waiting. -/
def live : State := { owned (withK { moving with setpoints := at4 28000 (-500) 12000 30000 }) with pending := [.stopAssert] }

theorem live_step : ∃ t, step live = .next t := ⟨_, rfl⟩

theorem live_cam (c : Cam) : live.cam c = (if c = 0 then { moving with setpoints := at4 28000 (-500) 12000 30000 } else resetCamera) := by
  revert c; decide

theorem witness_StepKeepsFormAndRanges : (∃ t, step live = .next t) ∧ MemoryForm live ∧ RangesHold live := by
  refine ⟨live_step, rfl, ?_⟩
  constructor <;> decide

theorem live_companions : CompanionsHold live := by
  intro c
  rw [live_cam]
  split <;> constructor <;> decide

theorem witness_StepKeepsCompanions : (∃ t, step live = .next t) ∧ CompanionsHold live := ⟨live_step, live_companions⟩

theorem live_limits : LimitsHold live := by
  intro c
  rw [live_cam]
  split
  · constructor
    · unfold withinLimits; decide
    · intro _; constructor <;> first | decide | (unfold withinLimits; decide)
    · intro t h; cases h
    · decide
  · constructor
    · intro h; cases h
    · rintro (h | h) <;> cases h
    · intro t h; cases h
    · decide

theorem witness_StepKeepsLimits : (∃ t, step live = .next t) ∧ CompanionsHold live ∧ LimitsHold live :=
  ⟨live_step, live_companions, live_limits⟩

theorem witness_StepKeepsTheFloor : (∃ t, step live = .next t) ∧ CompanionsHold live ∧ ZonesHold live ∧ HoldersRoam live := by
  refine ⟨live_step, live_companions, zonesHold_free _ (by decide) (by decide) (by decide), ?_⟩
  have h : ∀ c : Cam, (live.cam c).held.isSome = false ∧ (live.cam c).claim.isSome = false ∧ (live.cam c).adoption.isSome = false := by decide
  have hc : ∀ x y : Fin 32, gridAt live.floor.cells x y = .free := by decide
  constructor
  · intro x y c e; rw [hc] at e; cases e
  · intro c e; rw [(h c).1] at e; cases e
  · intro c e; rw [(h c).2.1] at e; cases e
  · intro c e; rw [(h c).2.2] at e; cases e

theorem live_pace : PaceHolds live := by
  intro c
  rw [live_cam]
  split
  · constructor <;> decide
  · constructor <;> decide

/-- The part with a ROAMING camera standing on its parked rectangle, a command waiting. -/
def standing : State :=
  { withK { roamer 10000 6000 with held := some ⟨1, 0, 3, 2⟩ } with
    floor := { run.floor with cells := gridOf fun x y => if inRect ⟨1, 0, 3, 2⟩ x y then .held 0 else .free }
    pending := [.stopAssert] }

theorem standing_cam (c : Cam) : standing.cam c = (if c = 0 then { roamer 10000 6000 with held := some ⟨1, 0, 3, 2⟩ } else resetCamera) := by
  revert c; decide

theorem standing_cell (x y : Fin 32) : gridAt standing.floor.cells x y = if inRect ⟨1, 0, 3, 2⟩ x y then .held 0 else .free := by
  simp only [standing, gridAt_gridOf]

theorem standing_held : HeldSetHolds standing where
  cells c x y := by
    rw [standing_cell, standing_cam]
    by_cases hc : c = 0
    · subst hc; simp only [if_true, Option.any_some]; split <;> simp_all
    · have : (0 : Cam) ≠ c := fun h => hc h.symm
      simp only [hc, if_false]; split <;> simp_all [resetCamera]
  fits c h _ := by
    rw [standing_cam] at h ⊢
    split at h
    · rw [if_pos ‹_›]
      refine ⟨by decide, fun _ => by decide, ?_, ?_, fun t h => by cases h⟩
      · rintro (h | h) <;> cases h
      · rintro (⟨h, _⟩ | h) <;> cases h
    · cases h
  load := ⟨fun h => absurd rfl h, fun h => absurd rfl h, fun _ _ h => by cases h⟩

theorem standing_roams : HoldersRoam standing where
  cells x y c h := by
    rw [standing_cell] at h
    split at h <;> cases h
    rw [standing_cam]; decide
  held c h := by revert c; simp only [standing_cam]; decide
  claim c h := by revert c; simp only [standing_cam]; decide
  adoption c h := by revert c; simp only [standing_cam]; decide

/-- The setpoints stand on the parked rectangle, cell (2, 1) of which is held before and after the step. -/
theorem witness_StepKeepsTheHeldSet :
    (∃ t, step standing = .next t ∧ enabledState (t.cam 0).state = true ∧ isRoaming (t.cam 0) = true ∧
      inRect (parkedRect t.floor (t.cam 0).cfg.margin (t.cam 0).setpoints[floorX] (t.cam 0).setpoints[floorY]) 2 1 = true) ∧
    CompanionsHold standing ∧ RangesHold standing ∧ LimitsHold standing ∧ PaceHolds standing ∧ HoldersRoam standing ∧
    HeldSetHolds standing := by
  refine ⟨⟨_, rfl, by decide, by decide, by decide⟩, ?_, ?_, ?_, ?_, standing_roams, standing_held⟩
  · intro c; rw [standing_cam]; split <;> constructor <;> decide
  · constructor <;> decide
  · intro c; rw [standing_cam]
    split
    · constructor
      · unfold withinLimits; decide
      · rintro (h | h) <;> cases h
      · intro t h; cases h
      · decide
    · constructor
      · intro h; cases h
      · rintro (h | h) <;> cases h
      · intro t h; cases h
      · decide
  · intro c; rw [standing_cam]; split <;> constructor <;> decide

theorem witness_StepKeepsPace :
    (∃ t, step live = .next t ∧ enabledState (t.cam 0).state = true) ∧ CompanionsHold live ∧ RangesHold live ∧ LimitsHold live ∧
    PaceHolds live ∧ enabledState (live.cam 0).state = true ∧ inMask (live.cam 0).cfg.mask 0 = true :=
  ⟨⟨_, rfl, by decide⟩, live_companions, witness_StepKeepsFormAndRanges.2.2, live_limits, live_pace, by decide, by decide⟩

theorem witness_ChangesAreMarkedDue :
    (∃ t, step live = .next t ∧ ReportChanged live t .flags ∧ ReportChanged live t .lineState ∧ ReportChanged live t (.record 0)) ∧
    ∃ t, step { zoned with pending := [.zoneApply 7 0 2] } = .next t ∧
      ReportChanged { zoned with pending := [.zoneApply 7 0 2] } t (.zone 7) ∧
      ReportChanged { zoned with pending := [.zoneApply 7 0 2] } t (.cell 9 4) :=
  ⟨⟨_, rfl, ⟨8, by decide⟩, .inr (by decide), by unfold ReportChanged; decide⟩,
    ⟨_, rfl, by unfold ReportChanged; decide, by unfold ReportChanged; decide⟩⟩

theorem witness_StepLeavesNothingIdle : (∃ t, step live = .next t) ∧ NothingIdle live :=
  ⟨live_step, HostWaits.of_empty rfl, ⟨rfl, fun _ => rfl⟩, fun h => by cases h⟩

end Sys2Proof.Tests
end

/-! The move computation: what the planner's plan holds (R21 to R23), and the numerator of a plan (R26). The numerator is read on
closed pieces, so that a step of P never crosses a piece's end: its monotony is then one inequality in each piece. -/

namespace Sys2Proof.Machine

theorem getElem_positionsOf (f : Axis → Int) (a : Axis) : (positionsOf f)[a] = f a := by simp [positionsOf]

@[simp] theorem mem_maskAxes {m : BitVec 7} {a : Axis} : a ∈ maskAxes m ↔ inMask m a = true := by simp [maskAxes]

/-! The planner -/

/-- The plan that stages 1 to 7 form when none of them ends the cue. -/
def planOf (cfg : CamConfig) (o : Positions) (req : MoveRequest) : Plan :=
  let delta := planDelta cfg o req
  let n := planFrames cfg req delta
  let r := Nat.min req.ramp (n / 2)
  { origin := planOrigin cfg o, target := planTarget cfg o req, delta := delta, detail := planDetail cfg o req
    onAir := req.onAir, n := n, r := r, n' := 256 * n, r' := 256 * r, k := planK (256 * n) (256 * r)
    c := planCap cfg req.onAir delta n r }

/-- The planner makes a plan exactly when a present axis travels and the duration fits (R21, R22). -/
theorem planMove_eq_plan_iff {cfg : CamConfig} {o : Positions} {req : MoveRequest} {pl : Plan} :
    planMove cfg o req = .plan pl ↔
      (∃ a : Axis, inMask cfg.mask a = true ∧ (planDelta cfg o req)[a] ≠ 0) ∧
        planFrames cfg req (planDelta cfg o req) ≤ 65535 ∧ planOf cfg o req = pl := by
  have htravel : ((maskAxes cfg.mask).all fun a => (planDelta cfg o req)[a] == 0) = true ↔
      ¬∃ a : Axis, inMask cfg.mask a = true ∧ (planDelta cfg o req)[a] ≠ 0 := by simp
  simp only [planMove, htravel]
  split
  · simp_all
  · split
    · simp_all
    · simp_all [planOf]

theorem planDelta_of_present {cfg : CamConfig} {o : Positions} {req : MoveRequest} {a : Axis} (ha : inMask cfg.mask a = true) :
    (planDelta cfg o req)[a] = (if axisHeld cfg o req a then o[a] else clampedTarget cfg req.target a) - o[a] := by
  rw [planDelta, getElem_positionsOf, planTarget, getElem_positionsOf, planOrigin, getElem_positionsOf, if_pos ha, if_pos ha]

/-- Stage 2 holds an axis whose speed is 0 at its origin, so that a travelling axis has speed (R20, R22). -/
theorem moveSpeed_pos_of_travel {cfg : CamConfig} {o : Positions} {req : MoveRequest} {a : Axis}
    (ha : inMask cfg.mask a = true) (hd : (planDelta cfg o req)[a] ≠ 0) : 0 < moveSpeed cfg req.onAir a := by
  by_contra hv
  apply hd
  rw [planDelta_of_present ha]
  by_cases hheld : axisHeld cfg o req a = true
  · rw [if_pos hheld, sub_self]
  · have harrived : clampedTarget cfg req.target a = o[a] := by
      simpa [axisHeld, Nat.eq_zero_of_not_pos hv] using hheld
    rw [if_neg hheld, harrived, sub_self]

theorem ceilDiv_pos {x v : Nat} (hx : 0 < x) (hv : 0 < v) : 0 < ceilDiv x v := Nat.div_pos (by omega) hv

/-- A fold whose steps never lessen it reaches what the step of one entry reaches. -/
theorem le_foldl_of_mem {α : Type} {f : Nat → α → Nat} {l : List α} {a : α} {x : Nat} (hf : ∀ n b, n ≤ f n b)
    (ha : ∀ n, x ≤ f n a) (h : a ∈ l) (n : Nat) : x ≤ l.foldl f n := by
  have hkeeps : ∀ (l : List α) (n : Nat), n ≤ l.foldl f n := by
    intro l
    induction l with
    | nil => exact fun n => Nat.le_refl n
    | cons b l ih => exact fun n => (hf n b).trans (ih _)
  induction l generalizing n with
  | nil => cases h
  | cons b l ih =>
    rcases List.mem_cons.mp h with rfl | h
    · exact (ha n).trans (hkeeps l _)
    · exact ih h _

/-- The duration is no less than the need of any travelling axis (R22). -/
theorem need_le_planFrames {cfg : CamConfig} {req : MoveRequest} {delta : Positions} {a : Axis}
    (ha : inMask cfg.mask a = true) (hd : delta[a] ≠ 0) :
    req.ramp + ceilDiv delta[a].natAbs (moveSpeed cfg req.onAir a) ≤ planFrames cfg req delta := by
  refine le_foldl_of_mem (fun n b => ?_) (fun n => ?_) (mem_maskAxes.mpr ha) _
  · split
    · exact Nat.le_refl n
    · exact Nat.le_max_left _ _
  · rw [if_neg hd]; exact Nat.le_max_right _ _

/-- A planned move lasts at least one frame and at most 65535 (R22, R29). -/
theorem planMove_frames {cfg : CamConfig} {o : Positions} {req : MoveRequest} {pl : Plan} (h : planMove cfg o req = .plan pl) :
    1 ≤ pl.n ∧ pl.n ≤ 65535 := by
  obtain ⟨⟨a, ha, hd⟩, hn, rfl⟩ := planMove_eq_plan_iff.mp h
  have hneed := need_le_planFrames (req := req) ha hd
  have hpos := ceilDiv_pos (Int.natAbs_pos.mpr hd) (moveSpeed_pos_of_travel ha hd)
  exact ⟨by simp only [planOf]; omega, hn⟩

/-! The numerator up to the last piece -/

theorem moveNum_linear {pl : Plan} (hr : pl.r = 0) (p : Nat) : moveNum pl p = p := if_pos hr

theorem moveNum_rising {pl : Plan} (hr : 0 < pl.r) {p : Nat} (hp : p ≤ pl.r') : moveNum pl p = p ^ 2 := by
  rw [moveNum, if_neg hr.ne', if_pos hp, sq]

/-- Where the first piece and the middle one meet, both give R'^2. -/
theorem sq_eq_mul_two_mul_sub (r : Nat) : r ^ 2 = r * (2 * r - r) := by rw [sq, two_mul, Nat.add_sub_cancel]

/-- The middle piece holds at its lower end too, where it meets the first. -/
theorem moveNum_steady {pl : Plan} (hr : 0 < pl.r) {p : Nat} (hlo : pl.r' ≤ p) (hhi : p ≤ pl.n' - pl.r') :
    moveNum pl p = pl.r' * (2 * p - pl.r') := by
  rcases hlo.eq_or_lt with rfl | hlo
  · rw [moveNum_rising hr le_rfl, ← sq_eq_mul_two_mul_sub]
  · rw [moveNum, if_neg hr.ne', if_neg (by omega), if_pos hhi]

theorem moveNum_zero (pl : Plan) : moveNum pl 0 = 0 := by
  rcases Nat.eq_zero_or_pos pl.r with hr | hr
  · exact moveNum_linear hr 0
  · exact moveNum_rising hr (Nat.zero_le _)

/-! The scale of a plan -/

/-- The ramps of a plan do not overlap, and its scaled values and denominator are those of its duration and ramp (R23). -/
structure Plan.Scaled (pl : Plan) : Prop where
  ramp : 2 * pl.r ≤ pl.n
  n' : pl.n' = 256 * pl.n
  r' : pl.r' = 256 * pl.r
  k : pl.k = planK pl.n' pl.r'

theorem planMove_ramp {cfg : CamConfig} {o : Positions} {req : MoveRequest} {pl : Plan} (h : planMove cfg o req = .plan pl) :
    pl.r = Nat.min req.ramp (pl.n / 2) := by
  obtain ⟨-, -, rfl⟩ := planMove_eq_plan_iff.mp h
  rfl

theorem planMove_scaled {cfg : CamConfig} {o : Positions} {req : MoveRequest} {pl : Plan} (h : planMove cfg o req = .plan pl) :
    pl.Scaled := by
  have hhalf : pl.r ≤ pl.n / 2 := planMove_ramp h ▸ Nat.min_le_right _ _
  obtain ⟨-, -, rfl⟩ := planMove_eq_plan_iff.mp h
  exact ⟨by omega, rfl, rfl, rfl⟩

namespace Plan.Scaled

variable {pl : Plan} (h : pl.Scaled)
include h

theorem two_mul_r'_le : 2 * pl.r' ≤ pl.n' := by have := h.ramp; have := h.n'; have := h.r'; omega

theorem k_of_linear (hr : pl.r = 0) : pl.k = pl.n' := by rw [h.k, planK, if_pos (by rw [h.r', hr])]

theorem k_of_ramped (hr : 0 < pl.r) : pl.k = 2 * pl.r' * (pl.n' - pl.r') := by
  rw [h.k, planK, if_neg (by have := h.r'; omega)]

/-- K is at least 256 (R23): twice the scaled ramp alone is, and the scaled duration past it is not 0. -/
theorem le_k (hn : 1 ≤ pl.n) : 256 ≤ pl.k := by
  have hn' := h.n'
  rcases Nat.eq_zero_or_pos pl.r with hr | hr
  · rw [h.k_of_linear hr]; omega
  · have hr' := h.r'
    have hle := h.two_mul_r'_le
    rw [h.k_of_ramped hr]
    calc 256 ≤ 2 * pl.r' := by omega
      _ ≤ 2 * pl.r' * (pl.n' - pl.r') := Nat.le_mul_of_pos_right _ (by omega)

/-- K is below 2^47 (R23): R' and N' - R' sum to N', so that four times their product is at most the square of N'. -/
theorem k_lt (hn : pl.n ≤ 65535) : pl.k < 2 ^ 47 := by
  have hn' : pl.n' ≤ 16776960 := by have := h.n'; omega
  rcases Nat.eq_zero_or_pos pl.r with hr | hr
  · rw [h.k_of_linear hr]; omega
  · have hk : 2 * pl.k ≤ 16776960 ^ 2 := calc
      2 * pl.k = 4 * pl.r' * (pl.n' - pl.r') := by rw [h.k_of_ramped hr]; ring
      _ ≤ (pl.r' + (pl.n' - pl.r')) ^ 2 := four_mul_le_sq_add _ _
      _ = pl.n' ^ 2 := by rw [Nat.add_sub_of_le (by have := h.two_mul_r'_le; omega)]
      _ ≤ 16776960 ^ 2 := Nat.pow_le_pow_left hn' 2
    omega

/-! The numerator from the last piece on, and over all of them -/

/-- Where the middle piece and the last meet, both give R' (2 N' - 3 R'). -/
theorem k_sub_at_meeting (hr : 0 < pl.r) : pl.k - pl.r' ^ 2 = pl.r' * (2 * pl.n' - 3 * pl.r') := by
  obtain ⟨m, hm⟩ := Nat.exists_eq_add_of_le h.two_mul_r'_le
  have hsub : pl.n' - pl.r' = pl.r' + m := by omega
  have hright : 2 * pl.n' - 3 * pl.r' = pl.r' + 2 * m := by omega
  rw [h.k_of_ramped hr, hsub, hright]
  exact Nat.sub_eq_of_eq_add (by ring)

/-- The last piece holds at its lower end too, where it meets the piece before it. -/
theorem moveNum_falling (hr : 0 < pl.r) {p : Nat} (hlo : pl.n' - pl.r' ≤ p) : moveNum pl p = pl.k - (pl.n' - p) ^ 2 := by
  have hle := h.two_mul_r'_le
  rcases hlo.eq_or_lt with rfl | hlo
  · rw [moveNum_steady hr (by omega) le_rfl, show pl.n' - (pl.n' - pl.r') = pl.r' by omega, h.k_sub_at_meeting hr]
    congr 1; omega
  · rw [moveNum, if_neg hr.ne', if_neg (by omega), if_neg (by omega), sq]

theorem moveNum_end : moveNum pl pl.n' = pl.k := by
  rcases Nat.eq_zero_or_pos pl.r with hr | hr
  · rw [moveNum_linear hr, h.k_of_linear hr]
  · rw [h.moveNum_falling hr (Nat.sub_le _ _), Nat.sub_self]; rfl

/-- A step of P by one stays within one closed piece, and the numerator does not fall in it. -/
theorem moveNum_le_succ (p : Nat) : moveNum pl p ≤ moveNum pl (p + 1) := by
  rcases Nat.eq_zero_or_pos pl.r with hr | hr
  · rw [moveNum_linear hr, moveNum_linear hr]; exact Nat.le_succ p
  · by_cases hrise : p + 1 ≤ pl.r'
    · rw [moveNum_rising hr (by omega), moveNum_rising hr hrise]
      exact Nat.pow_le_pow_left (Nat.le_succ p) 2
    · by_cases hsteady : p + 1 ≤ pl.n' - pl.r'
      · rw [moveNum_steady hr (by omega) (by omega), moveNum_steady hr (by omega) hsteady]
        exact Nat.mul_le_mul_left _ (by omega)
      · rw [h.moveNum_falling hr (by omega), h.moveNum_falling hr (by omega)]
        exact Nat.sub_le_sub_left (Nat.pow_le_pow_left (by omega) 2) _

theorem moveNum_mono : Monotone (moveNum pl) := monotone_nat_of_le_succ h.moveNum_le_succ

theorem moveNum_le_k {p : Nat} (hp : p ≤ pl.n') : moveNum pl p ≤ pl.k := h.moveNum_end ▸ h.moveNum_mono hp

end Plan.Scaled

/-! The obligations -/

/-- Settles O49: the ramp is read off the planner's plan, the ranges come from a duration of 1 to 65535 frames. -/
theorem planIsScaled : Obligations.PlanIsScaled := by
  intro cfg o req pl h
  have hs := planMove_scaled h
  obtain ⟨hlo, hhi⟩ := planMove_frames h
  have hramp := hs.ramp
  have hn' := hs.n'
  exact ⟨planMove_ramp h, hramp, fun hone => by omega, hn', hs.r', hs.k_of_ramped, hs.k_of_linear, by omega, by omega,
    hs.le_k hlo, hs.k_lt hhi⟩

/-- Settles O50, by the closed pieces of the numerator, which a step of P never crosses. -/
theorem numeratorFollowsProgress : Obligations.NumeratorFollowsProgress := by
  intro cfg o req pl h
  have hs := planMove_scaled h
  have hle := hs.two_mul_r'_le
  refine ⟨fun p hp => ⟨fun hr => moveNum_linear hr p, fun hr => moveNum_rising hr,
    fun hr hlo => moveNum_steady hr hlo.le, fun hr hlo => hs.moveNum_falling hr hlo.le, hs.moveNum_le_k hp⟩,
    moveNum_zero pl, hs.moveNum_end, fun p p' hpp _ => hs.moveNum_mono hpp, fun _ => ?_, fun hr => ?_, fun htwice => ?_,
    fun k => ⟨rfl, fun a => getElem_positionsOf _ a⟩⟩
  · exact sq_eq_mul_two_mul_sub _
  · rw [show pl.n' - (pl.n' - pl.r') = pl.r' by omega]; exact hs.k_sub_at_meeting hr
  · have hn' := hs.n'
    have hr' := hs.r'
    omega

end Sys2Proof.Machine

/-! Posts that only record a result (R66, R83) -/

namespace Sys2Proof.Machine

variable {s : State} {c : Cam} {tag : BitVec 8} {spare kind : BitVec 4} {par : BitVec 2}

theorem State.modCam_id (c : Cam) (s : State) : s.modCam c id = s := by
  simp [State.modCam, State.setCam, State.cam]

/-- A post whose judging records a result and does no more leaves its COMMAND word in memory, and of the part changes that result group and
the result's flags alone (R66, R83, R85). -/
theorem post_recorded {code : Code} {detail : BitVec 16} (h : Posting s c (commandWord tag spare kind par))
    (hj : ∀ t, judgeCue c tag kind t = recordResult c tag kind code detail t) :
    MemoryPut s (addrOf s.base (mailboxOff c 0)) (commandWord tag spare kind par) (postKind c tag spare kind par s) ∧
      Settled (afterPost s c (commandWord tag spare kind par) (withResult tag kind code detail (s.cam c)) code)
        (postKind c tag spare kind par s) := by
  refine post_settled h fun b => ?_
  rw [hj]
  have touches := recordResult_touches c tag kind code detail (posted b s c (commandWord tag spare kind par))
  have settled : Settled (afterPost s c (commandWord tag spare kind par) (withResult tag kind code detail (s.cam c)) code)
      (recordResult c tag kind code detail (posted b s c (commandWord tag spare kind par))) := by
    simpa only [State.modCam_id, id] using
      recordResult_settled (s := s) (c := c) (w := commandWord tag spare kind par) (b := b) id
  exact ⟨settled, touches.mem, touches.bus⟩

theorem exec_postUnknownKind (c : Cam) (tag : BitVec 8) (spare kind : BitVec 4) (par : BitVec 2) (s : State) :
    exec (.postUnknownKind c tag spare kind par) s = .next (postKind c tag spare kind par s) := rfl

/-- Settles O23: each unknown code is judged by recording BAD_KIND, and the camera's state is never asked. -/
theorem unknownKindIsRefused : Obligations.UnknownKindIsRefused := by
  intro s c tag spare kind par hkind hpost
  obtain ⟨hmem, hset⟩ := post_recorded hpost (judgeCue_unknown c tag hkind)
  exact ⟨_, exec_postUnknownKind c tag spare kind par s, hmem, hset⟩

end Sys2Proof.Machine

/-! Outside accesses: which addresses are no region word's (R150), what a hit on a fence entry is (R154), and how a refused access ends
(R151). -/

namespace Sys2Proof.Machine

/-! Addresses and entries -/

/-- An address whose high byte is the region's is that of the region word its low half names (R150). -/
theorem addrOf_of_extract {base : BitVec 2} {a : Addr} (h : a.extractLsb' 16 8 = base ++ 0#6) :
    addrOf base (a.extractLsb' 0 16) = a := by
  calc addrOf base (a.extractLsb' 0 16)
    _ = (base ++ 0#6 ++ a.extractLsb' 0 16 : BitVec 24) :=
      (BitVec.append_assoc (x₁ := base) (x₂ := 0#6) (x₃ := a.extractLsb' 0 16)).symm
    _ = a.extractLsb' 16 8 ++ a.extractLsb' 0 16 := by rw [h]
    _ = a := BitVec.extractLsb'_append_extractLsb' (w := 8) (len := 16)

/-- The machine's decode of the address agrees with Outside (R150). -/
theorem offsetOf_eq_none_iff {s : State} {a : Addr} : offsetOf s.base a = none ↔ Outside s a := by
  constructor
  · rintro h off rfl
    rw [offsetOf_addrOf] at h
    cases h
  · intro h
    unfold offsetOf
    exact if_neg fun hbase => h _ (addrOf_of_extract hbase).symm

/-- The word operation of the match compares exactly the bits that are 1 in the mask (R154). -/
theorem fenceMatch_iff {f : Fence} {a : Addr} : fenceMatch f a = true ↔ Matches f a := by
  have hbits : fenceMatch f a = true ↔ ∀ i < 24, ((a ^^^ f.base) &&& f.mask).getLsbD i = false := by
    rw [fenceMatch, beq_iff_eq]
    constructor
    · intro h i _
      rw [h]; exact BitVec.getLsbD_zero
    · intro h
      exact BitVec.eq_of_getLsbD_eq fun i hi => (h i hi).trans BitVec.getLsbD_zero.symm
  rw [hbits]
  refine forall₂_congr fun i _ => ?_
  rw [BitVec.getLsbD_and, BitVec.getLsbD_xor]
  cases f.mask.getLsbD i <;> simp

theorem fenceHit_iff {f : Fence} {a : Addr} {isWrite : Bool} : fenceHit f a isWrite = true ↔ HitBy f a isWrite := by
  simp [fenceHit, HitBy, fenceMatch_iff]

/-! The refusal of an access -/

/-- A refused access touches the host's side and the flags alone: it ends with a bus error, and FENCE_HIT is set (R151). -/
theorem refuseAccess_settled (x : HostAccess) (s : State) :
    Settled (refused x.addr x.write.isSome (x.write.getD (goodWord 0)) s) (refuseAccess x s) := by
  constructor <;> first | rfl | exact fun _ => rfl

/-- Fence entries that are replaced with their hit counters' due marks, and the same entries put in place without them (R155). -/
theorem refused_setFences_settled (a : Addr) (isWrite : Bool) (w : MWord) (fs : Vector Fence 8) (s : State) :
    Settled (refused a isWrite w { s with fences := fs }) (refused a isWrite w (s.setFences fs)) := by
  constructor <;> first | rfl | exact fun _ => rfl

/-! The judging of an outside access -/

/-- Each entry that the access hits counts the hit (R154, R155). -/
def countedFences (fences : Vector Fence 8) (a : Addr) (isWrite : Bool) : Vector Fence 8 :=
  Vector.ofFn fun n => if fenceHit fences[n] a isWrite then countHit fences[n] else fences[n]

theorem getElem_countedFences (fences : Vector Fence 8) (a : Addr) (isWrite : Bool) (n : Fin 8) :
    (countedFences fences a isWrite)[n] = if fenceHit fences[n] a isWrite then countHit fences[n] else fences[n] :=
  Vector.getElem_ofFn ..

theorem countedFences_of_hit {fences : Vector Fence 8} {a : Addr} {isWrite : Bool} {n : Fin 8} (h : HitBy fences[n] a isWrite) :
    (countedFences fences a isWrite)[n] = { fences[n] with hits := Nat.min 255 (fences[n].hits + 1) } := by
  rw [getElem_countedFences, if_pos (fenceHit_iff.mpr h), countHit]

theorem countedFences_of_not_hit {fences : Vector Fence 8} {a : Addr} {isWrite : Bool} {n : Fin 8} (h : ¬HitBy fences[n] a isWrite) :
    (countedFences fences a isWrite)[n] = fences[n] := by
  rw [getElem_countedFences, if_neg (fenceHit_iff.not.mpr h)]

theorem any_fenceHit_iff {fences : Vector Fence 8} {a : Addr} {isWrite : Bool} :
    ((List.finRange 8).any fun n => fenceHit fences[n] a isWrite) = true ↔ ∃ n : Fin 8, HitBy fences[n] a isWrite := by
  simp only [List.any_eq_true, List.mem_finRange, true_and, fenceHit_iff]

/-- An outside access that hits an entry is refused, and every entry it hits counts it (R151, R154, R155). -/
theorem outsideAccess_of_hit {s : State} {x : HostAccess} (h : ∃ n : Fin 8, HitBy s.fences[n] x.addr x.write.isSome) :
    outsideAccess x s = refuseAccess x (s.setFences (countedFences s.fences x.addr x.write.isSome)) :=
  if_pos (any_fenceHit_iff.mpr h)

/-- An outside access that hits no entry is forwarded as it is (R151, R154). -/
theorem outsideAccess_of_no_hit {s : State} {x : HostAccess} (h : ∀ n : Fin 8, ¬HitBy s.fences[n] x.addr x.write.isSome) :
    outsideAccess x s = forward x.addr x.write none .nothing s :=
  if_neg (any_fenceHit_iff.not.mpr (not_exists.mpr h))

/-- A ready part judges an outside access with no faulty word by the fences at once (R151, R154). -/
theorem present_outside {s : State} (h : HostReady s) {x : HostAccess} (ho : Outside s x.addr) (hw : x.write.all wordOk = true) :
    present x s = outsideAccess x s := by
  rw [present_classify h, testHostWord_good hw, classify, offsetOf_eq_none_iff.mpr ho]

theorem exec_hostCommand (a : Addr) (w : Option MWord) (s : State) :
    exec (hostCommand a w) s = .next (settle s (present ⟨a, w⟩ s)) := by
  cases w <;> rfl

/-- Settles O7: an outside access is either refused with the entries it hits counted, or forwarded; which of the two is the question
whether some entry is hit. -/
theorem fencesJudgeOutsideAccesses : Obligations.FencesJudgeOutsideAccesses := by
  intro s a w hready ho hw
  refine ⟨_, exec_hostCommand a w s, ?_⟩
  rw [present_outside hready (x := ⟨a, w⟩) ho hw]
  by_cases hhit : ∃ n : Fin 8, HitBy s.fences[n] a w.isSome
  · rw [outsideAccess_of_hit (x := ⟨a, w⟩) hhit]
    have hwaits : HostWaits (refuseAccess ⟨a, w⟩ (s.setFences (countedFences s.fences a w.isSome))) := .of_empty hready.queue
    have hset := settle_settled hwaits
      ((refused_setFences_settled a w.isSome (w.getD (goodWord 0)) _ s).trans (refuseAccess_settled ⟨a, w⟩ _)) s
    have hfences := hset.fences
    refine ⟨settle_same hwaits rfl s, fun _ => ⟨?_, fun n => ⟨fun hn => ?_, fun hn => ?_⟩⟩, fun hno => absurd hhit (not_exists.mpr hno)⟩
    · rw [hfences]; exact hset
    · rw [hfences]; exact countedFences_of_hit hn
    · rw [hfences]; exact countedFences_of_not_hit hn
  · have hno := not_exists.mp hhit
    rw [outsideAccess_of_no_hit (x := ⟨a, w⟩) hno]
    obtain ⟨hmem, hset, hforwarded⟩ := settle_forward (Settled.refl s) hready.queue rfl s a w none .nothing
    exact ⟨hmem, fun h => absurd h hhit, fun _ => ⟨hset, hforwarded⟩⟩

end Sys2Proof.Machine

/-! The mask word and the interrupt line (R166). -/

namespace Sys2Proof.Machine

/-! The host's write of the mask word -/

theorem regionWord_mask : regionWord (0x41 : Offset).toNat = .mask := by decide

/-- A host write word of bad parity is handed on (R159). -/
theorem testHostWord_bad {a : Addr} {w : MWord} (hw : wordOk w = false) (s : State) :
    testHostWord ⟨a, some w⟩ s = s.error .passParity false a w := by
  simp [testHostWord, hw]

theorem writeMask_good {w : MWord} (hw : wordOk w = true) (x : HostAccess) (s : State) :
    writeMask x w s = forward x.addr (some w) none .nothing (s.modStat fun t => { t with mask := w.data.extractLsb' 0 12 }) := by
  simp only [writeMask, hw, if_true]

theorem writeMask_bad {w : MWord} (hw : wordOk w = false) (x : HostAccess) (s : State) :
    writeMask x w s = forward x.addr (some w) none .nothing s := by
  simp only [writeMask, hw, Bool.false_eq_true, if_false]

/-- The mask word of a good write is taken at its decode, and the word is forwarded (R166). -/
theorem presentAt_mask_good {s : State} (h : HostReady s) {w : MWord} (hw : wordOk w = true) :
    presentAt 0x41 w s = forward (addrOf s.base 0x41) (some w) none .nothing
      (s.modStat fun t => { t with mask := w.data.extractLsb' 0 12 }) := by
  rw [presentAt_good h 0x41 hw, regionWrite, regionWord_mask]
  exact writeMask_good hw ..

/-- A bad mask word is handed on and forwarded, and the mask stands (R159, R166). -/
theorem presentAt_mask_bad {s : State} (h : HostReady s) {w : MWord} (hw : wordOk w = false) :
    presentAt 0x41 w s = forward (addrOf s.base 0x41) (some w) none .nothing (s.error .passParity false (addrOf s.base 0x41) w) := by
  rw [presentAt_region h, testHostWord_bad hw, regionWrite, regionWord_mask]
  exact writeMask_bad hw ..

theorem exec_maskWordWrite (w : MWord) (s : State) : exec (.maskWordWrite w) s = .next (settle s (presentAt 0x41 w s)) := rfl

/-! The interrupt line -/

theorem ne_zero_iff_exists_bit {n : Nat} {v : BitVec n} : v ≠ 0 ↔ ∃ i < n, v.getLsbD i = true := by
  rw [ne_eq, BitVec.eq_of_getLsbD_eq_iff]
  simp

/-- The line's word operation asks whether some flag is both set and unmasked (R166). -/
theorem irq_iff {s : State} : s.irq = true ↔ ∃ i < 12, s.stat.flags.getLsbD i = true ∧ s.stat.mask.getLsbD i = false := by
  rw [State.irq, bne_iff_ne, ne_zero_iff_exists_bit]
  refine exists_congr fun i => and_congr_right fun hi => ?_
  simp [hi]

/-- Setting flags asks nothing of the mask and leaves it (R165, R166). -/
theorem flag_flags_mask (f : BitVec 12) (s : State) :
    (s.flag f).stat.flags = s.stat.flags ||| f ∧ (s.flag f).stat.mask = s.stat.mask := ⟨rfl, rfl⟩

/-- At RESETn no flag is set, so none is set and unmasked. -/
theorem irq_reset : State.reset.irq = false := by
  rw [Bool.eq_false_iff, ne_eq, irq_iff]
  rintro ⟨i, -, hset, -⟩
  have hflags : State.reset.stat.flags = 0 := rfl
  simp [hflags] at hset

/-- Settles O12: the mask word is forwarded whatever its parity, which decides only between taking the mask and handing the error on; the
line is read flag by flag. -/
theorem maskWordDrivesTheInterruptLine : Obligations.MaskWordDrivesTheInterruptLine := by
  refine ⟨fun s w hready => ⟨_, exec_maskWordWrite w s, ?_⟩, fun _ => irq_iff, fun s f => flag_flags_mask f s, rfl, irq_reset⟩
  cases hw : wordOk w with
  | true =>
    rw [presentAt_mask_good hready hw]
    obtain ⟨hmem, hset, hforwarded⟩ :=
      settle_forward (Settled.refl (s.modStat fun t => { t with mask := w.data.extractLsb' 0 12 })) hready.queue rfl s
        (addrOf s.base 0x41) (some w) none .nothing
    exact ⟨hmem, hforwarded, fun _ => hset, nofun⟩
  | false =>
    rw [presentAt_mask_bad hready hw]
    obtain ⟨hmem, hset, hforwarded⟩ :=
      settle_forward (error_settled .passParity false (addrOf s.base 0x41) w s) hready.queue rfl s
        (addrOf s.base 0x41) (some w) none .nothing
    exact ⟨hmem, hforwarded, nofun, fun _ => hset⟩

end Sys2Proof.Machine

/-! The queue of commands (log 3), and the state right after RESETn (R40). -/

namespace Sys2Proof.Machine

/-! One step -/

theorem step_cons (c : Instr) (rest : List Instr) (s : State) :
    step { s with pending := c :: rest } = exec c { s with pending := rest } := rfl

theorem step_nil {s : State} (h : s.pending = []) : step s = .next s := by rw [step, h]

/-- Settles O1: the front command is taken by definition, and an empty queue idles. -/
theorem stepTakesTheFrontCommand : Obligations.StepTakesTheFrontCommand := ⟨step_cons, fun _ => step_nil⟩

/-- What a step takes: nothing on an empty queue, and else the front command on the rest of the queue. -/
theorem step_cases {s t : State} (h : step s = .next t) :
    t = s ∨ ∃ c rest, s.pending = c :: rest ∧ exec c { s with pending := rest } = .next t := by
  unfold step at h
  split at h
  · cases h; exact .inl rfl
  · next c rest hp => exact .inr ⟨c, rest, hp, h⟩

/-! The reset state -/

@[simp] theorem reset_cam (c : Cam) : State.reset.cam c = resetCamera := by simp [State.cam, State.reset]

@[simp] theorem reset_cell (x y : Fin 32) : gridAt State.reset.floor.cells x y = .free := by simp [gridAt, State.reset]

@[simp] theorem reset_zone (z : Nat) (h : z < 16) : State.reset.floor.zones[z] = ⟨Vector.replicate 4 0, .inactive, none⟩ := by
  simp [State.reset]

@[simp] theorem reset_fence (n : Nat) (h : n < 8) : State.reset.fences[n] = ⟨0, 0, .off, 0⟩ := by simp [State.reset]

/-- Every item is due after RESETn (R168). -/
@[simp] theorem reset_itemDue (i : StatusItem) : itemDue i State.reset.stat = true := by
  cases i <;> simp [itemDue, State.reset, gridAt]

theorem companionsFit_reset : CompanionsFit resetCamera := by constructor <;> simp [resetCamera, activeState, movingState]

theorem limitsFit_reset : LimitsFit resetCamera := by constructor <;> simp [resetCamera, enabledState, movingState]

theorem paceFits_reset : PaceFits resetCamera := by constructor <;> simp [resetCamera, enabledState, movingState]

theorem rangesHold_reset : RangesHold State.reset := by
  constructor
  case missed => exact Nat.zero_le _
  all_goals intros; simp [resetCamera]

theorem zonesHold_reset : ZonesHold State.reset := by
  constructor <;> intros <;> simp [inActiveZone]

theorem holdersRoam_reset : HoldersRoam State.reset := by
  constructor <;> intros <;> simp_all [resetCamera]

theorem loadComesFirst_reset : LoadComesFirst State.reset := by
  refine ⟨fun _ => ⟨fun c => ?_, rfl, rfl⟩, fun _ _ _ _ h => ?_, fun _ _ h => ?_⟩
  · rw [reset_cam]; rfl
  · cases h
  · cases h

theorem heldSetHolds_reset : HeldSetHolds State.reset where
  cells := by simp [resetCamera]
  fits c h := by simp [resetCamera, enabledState] at h
  load := loadComesFirst_reset

/-! A requester that asks for the port gets a grant: nothing is asked right after RESETn. -/

theorem ownGrants_reset : ownGrants State.reset = [] := rfl

theorem nothingIdle_reset : NothingIdle State.reset :=
  ⟨HostWaits.of_empty rfl, ⟨rfl, fun _ => rfl⟩, fun _ => ⟨rfl, ownGrants_reset⟩⟩

/-- Settles O60: each invariant is read off the reset values, and no camera is in a state that asks more. -/
theorem resetMeetsTheInvariants : Obligations.ResetMeetsTheInvariants :=
  ⟨memoryForm_reset, rangesHold_reset, fun c => reset_cam c ▸ companionsFit_reset, fun c => reset_cam c ▸ limitsFit_reset,
    fun c => reset_cam c ▸ paceFits_reset, zonesHold_reset, heldSetHolds_reset, holdersRoam_reset, nothingIdle_reset⟩

/-! RESETn asserted and released -/

/-- The state in which RESETn finds memory: the write at the port has reached it or has not (log 6). -/
def landedState (landed : Bool) (s : State) : State :=
  match s.port.cur with
  | some a => if landed then landWrite a s else s
  | none => s

theorem exec_resetAssert (landed : Bool) (s : State) :
    exec (.resetAssert landed) s = .next (resetState (landedState landed s)) := rfl

theorem landWrite_some {a : Access} {w : MWord} (h : a.write = some w) (s : State) : landWrite a s = s.write a.addr w := by
  rw [landWrite, h]

theorem landWrite_none {a : Access} (h : a.write = none) (s : State) : landWrite a s = s := by rw [landWrite, h]

/-- A write that lands changes memory alone. -/
theorem landWrite_eq (a : Access) (s : State) : ∃ m, landWrite a s = { s with mem := m } := by
  unfold landWrite
  split
  · exact ⟨_, rfl⟩
  · exact ⟨s.mem, rfl⟩

theorem landedState_eq (landed : Bool) (s : State) : ∃ m, landedState landed s = { s with mem := m } := by
  unfold landedState
  split
  · split
    · exact landWrite_eq _ s
    · exact ⟨s.mem, rfl⟩
  · exact ⟨s.mem, rfl⟩

/-- Settles O2: RESETn builds its state from the reset state, and keeps memory as the write at the port left it. -/
theorem resetClearsThePart : Obligations.ResetClearsThePart := by
  intro landed s
  refine ⟨_, exec_resetAssert landed s, ?_⟩
  obtain ⟨m, hm⟩ := landedState_eq landed s
  have hcam : ∀ c, (resetState (landedState landed s)).cam c = resetCamera := reset_cam
  have hmem : (resetState (landedState landed s)).mem = (landedState landed s).mem := rfl
  refine ⟨fun c => ?_, reset_cell, fun z => reset_zone z z.isLt, fun n => reset_fence n n.isLt, rfl, rfl, rfl, rfl, rfl, rfl, rfl, rfl, rfl, rfl, rfl, rfl, rfl, rfl, rfl,
    fun n => ?_, rfl, rfl, rfl, irq_reset, rfl, rfl, rfl, rfl, rfl, rfl, rfl, rfl, rfl, rfl, rfl, rfl, rfl, reset_itemDue, rfl, rfl,
    fun c => ?_, rfl, by rw [hm]; rfl, by rw [hm]; rfl, fun a w hf ha hw hl => ?_, fun h => ?_⟩
  · rw [hcam]; simp [resetCamera]
  · simp [resetState, State.reset]
  · simp [resetState, State.reset]
  · refine .of_mem hf (hmem.trans ?_)
    simp only [landedState, ha, hl, if_true, landWrite_some hw]
  · refine .of_mem (hmem.trans ?_)
    rcases h with h | ⟨a, h, hw⟩ | h
    · simp only [landedState, h]
    · simp only [landedState, h, landWrite_none hw, ite_self]
    · simp only [landedState, h, Bool.false_eq_true, if_false]
      split <;> rfl

/-- An event that leaves no request for the Shot Engine to start and no access to decode ends with the due marks and the grant alone. -/
theorem settleWith_eq {u : State} (hq : ShotQuiet u.shot) (hw : HostWaits u) (free : Bool) (old : State) :
    settleWith free old u = arbitrate free (markRecords old u) := by
  have hstart : startRequests u = u := by
    obtain ⟨e, he⟩ := startRequests_eq u
    have hshot := startRequests_quiet hq
    rw [he] at hshot ⊢
    simp only at hshot
    subst hshot
    rfl
  simp only [settleWith, hstart, pumpHost_of_waits hw]

theorem grantSetpoint_none {s : State} (hw : s.setp.writeOuts = []) (hf : s.setp.fills = []) : grantSetpoint s = none := by
  simp only [grantSetpoint, hw, grantFirstFill, hf]

theorem grantShot_none {s : State} (h : s.shot.op = none) : grantShot s = none := by simp [grantShot, h]

theorem grantHost_none {s : State} (h : s.bus.req = none) : grantHost s = none := by simp [grantHost, h]

theorem grantStatus_none_of_load {s : State} (h : s.startup ≠ .running) : grantStatus s = none := by simp [grantStatus, h]

/-- A single request for a free port is granted. -/
theorem arbitrate_single {s t : State} (hp : s.port.cur = none) (hh : s.bus.req = none) (ho : ownGrants s = [t]) (free : Bool) :
    arbitrate free s = t := by
  simp only [arbitrate, hp, Option.isSome_none, Bool.false_eq_true, if_false, grantHost_none hh, ho, ruleGrant, pickGrant,
    Option.toList, List.append_nil, List.head?_cons, Option.getD_some, ite_self]

/-- While the load reads and nothing else asks, its next read alone asks for the port. -/
theorem ownGrants_reading {s : State} {n : Nat} (hs : s.startup = .reading n) (hw : s.setp.writeOuts = []) (hf : s.setp.fills = [])
    (ho : s.shot.op = none) :
    ownGrants s = [grantOwn (.startupRead n) (addrOf s.base (loadReadOff n)) none none s] := by
  simp [ownGrants, grantSetpoint_none hw hf, grantShot_none ho, grantAdopt, hs,
    grantStatus_none_of_load (s := s) (by rw [hs]; exact Startup.noConfusion)]

/-- The state the release leaves before its end (R164). -/
def released (straps : BitVec 2) (s : State) : State := { s with base := straps, startup := .reading 0 }

theorem exec_resetRelease_of_reset (straps : BitVec 2) {s : State} (h : s.startup = .inReset) :
    exec (.resetRelease straps) s = .next (settle s (released straps s)) := if_pos h

theorem exec_resetRelease_of_not_reset (straps : BitVec 2) {s : State} (h : s.startup ≠ .inReset) :
    exec (.resetRelease straps) s = .next s := if_neg h

/-- With nothing else asking, the first read of the load is granted at the release (R161, R164). -/
theorem settle_released {s : State} {straps : BitVec 2} (hp : s.port.cur = none) (hr : s.bus.req = none)
    (hwo : s.setp.writeOuts = []) (hf : s.setp.fills = []) (hshot : s.shot = ⟨[], none, []⟩) :
    (settle s (released straps s)).port.cur = some ⟨.startupRead 0, addrOf straps 0, none, none, true⟩ := by
  have hq : ShotQuiet s.shot := by rw [hshot]; exact ⟨rfl, fun _ => rfl⟩
  have hop : s.shot.op = none := by rw [hshot]
  have hw : HostWaits (released straps s) := HostWaits.of_notRunning Startup.noConfusion
  have hread := ownGrants_reading (s := markRecords s (released straps s)) rfl hwo hf hop
  have hend := settleWith_eq (u := released straps s) hq hw s.port.cur.isNone s
  rw [arbitrate_single (s := markRecords s (released straps s)) hp hr hread] at hend
  rw [settle, hend]
  have hbase : (markRecords s (released straps s)).base = straps := rfl
  simp only [grantOwn, hbase]
  rfl

/-- Settles O3: the release starts the first phase, and its first read is the one request. -/
theorem resetReleaseStartsTheLoad : Obligations.ResetReleaseStartsTheLoad := by
  intro straps s
  refine ⟨fun h => ⟨_, exec_resetRelease_of_reset straps h, ?_⟩, exec_resetRelease_of_not_reset straps⟩
  have hw : HostWaits (released straps s) := HostWaits.of_notRunning Startup.noConfusion
  exact ⟨settle_settled hw (Settled.refl _) s, settle_same hw rfl s, settle_released⟩

end Sys2Proof.Machine

/-! The setpoints of a move (R27, R28). -/

namespace Sys2Proof.Machine

variable {pl : Plan}

theorem getElem_movePositions (pl : Plan) (p : Nat) (a : Axis) :
    (movePositions pl p)[a] = axisPosition pl.origin[a] pl.delta[a] (moveNum pl p) pl.k := getElem_positionsOf _ a

/-- The share of the travel x that the numerator num has made (R27). -/
theorem axisPosition_of_nonneg {o d : Int} (h : 0 ≤ d) (num k : Nat) : axisPosition o d num k = o + ((d.natAbs * num / k : Nat) : Int) :=
  if_pos h

theorem axisPosition_of_neg {o d : Int} (h : d < 0) (num k : Nat) : axisPosition o d num k = o - ((d.natAbs * num / k : Nat) : Int) :=
  if_neg (by omega)

theorem axisPosition_zero (o d : Int) (k : Nat) : axisPosition o d 0 k = o := by simp [axisPosition]

theorem axisPosition_end (o d : Int) {k : Nat} (hk : 0 < k) : axisPosition o d k k = o + d := by
  simp only [axisPosition, Nat.mul_div_cancel _ hk]
  split <;> omega

theorem share_mono (d : Nat) {m m' : Nat} (h : m ≤ m') (k : Nat) : d * m / k ≤ d * m' / k :=
  Nat.div_le_div_right (Nat.mul_le_mul_left d h)

theorem share_le (d : Nat) {m k : Nat} (h : m ≤ k) : d * m / k ≤ d :=
  Nat.div_le_of_le_mul (by rw [Nat.mul_comm k]; exact Nat.mul_le_mul_left d h)

theorem planMove_delta {cfg : CamConfig} {o : Positions} {req : MoveRequest} (h : planMove cfg o req = .plan pl) (a : Axis) :
    pl.delta[a] = pl.target[a] - pl.origin[a] := by
  obtain ⟨-, -, rfl⟩ := planMove_eq_plan_iff.mp h
  exact getElem_positionsOf _ a

/-- Between two points of the progress an axis moves from its origin toward its target, and not past it (R27). -/
theorem axisPosition_between {o t d : Int} (hd : d = t - o) {m m' k : Nat} (h : m ≤ m') (hk : m' ≤ k) :
    (o ≤ t → o ≤ axisPosition o d m k ∧ axisPosition o d m k ≤ axisPosition o d m' k ∧ axisPosition o d m' k ≤ t) ∧
      (t ≤ o → t ≤ axisPosition o d m' k ∧ axisPosition o d m' k ≤ axisPosition o d m k ∧ axisPosition o d m k ≤ o) := by
  have hmono := share_mono d.natAbs h k
  have hle := share_le d.natAbs hk
  rcases lt_or_ge d 0 with hneg | hpos
  · simp only [axisPosition_of_neg hneg]
    generalize d.natAbs * m / k = x at hmono ⊢
    generalize d.natAbs * m' / k = y at hmono hle ⊢
    omega
  · simp only [axisPosition_of_nonneg hpos]
    generalize d.natAbs * m / k = x at hmono ⊢
    generalize d.natAbs * m' / k = y at hmono hle ⊢
    omega

/-- Settles O51: each setpoint is the axis's share of its travel at the numerator, which runs from 0 to K and never falls. -/
theorem moveStaysOnItsWay : Obligations.MoveStaysOnItsWay := by
  intro cfg o req pl a h
  have hs := planMove_scaled h
  have hk : 0 < pl.k := Nat.lt_of_lt_of_le (by decide) (hs.le_k (planMove_frames h).1)
  have hd := planMove_delta h a
  refine ⟨fun p => ⟨fun hpos => ?_, fun hneg => ?_, rfl⟩, ?_, ?_, ?_, ?_, fun p p' hp hp' => ⟨?_, ?_⟩⟩
  · rw [getElem_movePositions, axisPosition_of_nonneg hpos]; push_cast; rfl
  · rw [getElem_movePositions, axisPosition_of_neg hneg]; push_cast; rfl
  · rw [getElem_movePositions, moveNum_zero, axisPosition_zero]
  · rw [getElem_movePositions, hs.moveNum_end, axisPosition_end _ _ hk]; omega
  · rw [moveQ, moveNum_zero, Nat.mul_zero, Nat.zero_div]
  · rw [moveQ, hs.moveNum_end, Nat.mul_div_cancel _ hk]
  · exact share_mono _ (hs.moveNum_mono hp) _
  · simp only [getElem_movePositions]
    exact axisPosition_between hd (hs.moveNum_mono hp) (hs.moveNum_le_k hp')

end Sys2Proof.Machine

/-! What the invariants leave open: nothing they say names the owner of the access that waits at the arbiter, so that it may be one of the
load's. Such an access is granted the port as the host's would be, and what is then at the port is no host access and one of the load's. -/

namespace Sys2Proof.Machine

/-- A read of the load's first phase, which in `strayRequest` waits where the host's forwarded access would. -/
def strayRead : Access := ⟨.startupRead 0, 0, none, none, true⟩

/-- The load has ended and every camera is OFFLINE; a fill's write holds the port, the stray read waits at the arbiter, and the host has
presented a read. -/
def strayRequest : State :=
  { State.reset with
    pending := [.directFillWriteEnd], startup := .running
    bus := { State.reset.bus with queue := [⟨0, none⟩], req := some strayRead }
    port := { State.reset.port with cur := some ⟨.fill 0, 0, some (goodWord 0), none, true⟩, lastOwn := true } }

/-- The step of `strayRequest`: the fill's write ends. -/
def strayGranted : State := settle { strayRequest with pending := [] } (endWrite ⟨.fill 0, 0, some (goodWord 0), none, true⟩ { strayRequest with pending := [] }).1

theorem step_strayRequest : step strayRequest = .next strayGranted := rfl

/-- After an own grant the request that waits is granted, whoever owns it (R161). -/
theorem strayGranted_port : strayGranted.port.cur = some strayRead := by decide

theorem strayGranted_host : strayGranted.startup = .running ∧ strayGranted.bus.queue = [⟨0, none⟩] ∧ hostBusy strayGranted = false := by
  decide

theorem strayRequest_cam (c : Cam) : strayRequest.cam c = resetCamera := reset_cam c

theorem nothingIdle_strayRequest : NothingIdle strayRequest := ⟨fun _ _ => rfl, ⟨rfl, fun _ => rfl⟩, fun h => by cases h⟩

/-- Refutes O59: in `strayRequest` the host's read waits for the access at the arbiter, which after its grant no longer stands for the host;
the read then waits while the part could decode it. -/
theorem not_stepLeavesNothingIdle : ¬ Obligations.StepLeavesNothingIdle := by
  intro h
  obtain ⟨hrun, hqueue, hidle⟩ := strayGranted_host
  have hbusy := (h _ _ step_strayRequest nothingIdle_strayRequest).host hrun (by rw [hqueue]; exact List.cons_ne_nil _ _)
  rw [hidle] at hbusy
  cases hbusy

theorem heldSetHolds_strayRequest : HeldSetHolds strayRequest where
  cells := heldSetHolds_reset.cells
  fits := heldSetHolds_reset.fits
  load := ⟨fun h => absurd rfl h, fun h => absurd rfl h, fun x n hx ho => by cases hx; rcases ho with ho | ho <;> cases ho⟩

/-- Refutes O56: no premise speaks of the access that waits at the arbiter, and in `strayRequest` its grant gives the port to a read of
the load after the load has ended. -/
theorem not_stepKeepsTheHeldSet : ¬ Obligations.StepKeepsTheHeldSet := by
  intro h
  have hcam (P : Camera → Prop) (hP : P resetCamera) (c : Cam) : P (strayRequest.cam c) := (strayRequest_cam c).symm ▸ hP
  have hranges : RangesHold strayRequest := ⟨rangesHold_reset.hits, rangesHold_reset.missed, rangesHold_reset.blocked,
    rangesHold_reset.override, rangesHold_reset.rate, rangesHold_reset.waitCount⟩
  have hroam : HoldersRoam strayRequest :=
    ⟨holdersRoam_reset.cells, holdersRoam_reset.held, holdersRoam_reset.claim, holdersRoam_reset.adoption⟩
  obtain ⟨hheld, -⟩ := h _ _ step_strayRequest (hcam _ companionsFit_reset) hranges (hcam _ limitsFit_reset) (hcam _ paceFits_reset) hroam
    heldSetHolds_strayRequest
  exact (hheld.load.port strayRead 0 strayGranted_port (.inl rfl)).1 strayGranted_host.1

end Sys2Proof.Machine

/-! What a step can do, said once. Every step is a course of elementary changes: of one camera, of the floor's cells and zones, of all
cameras at a tick, and of the rest of the part. Each invariant is then kept by every step when it is kept by each change. -/

namespace Sys2Proof.Machine

/-! The rest of the part: memory, counters and due marks -/

/-- What every change keeps apart from cameras and floor: the form of memory, the ranges of the two counters that stand outside the
cameras, the due marks that stand, and a due mark for every change that the Status Writer reports, a camera's record excepted, which is
marked at the end of the event (R168, R169). -/
structure Orderly (s t : State) : Prop where
  mem : MemoryForm s → MemoryForm t
  hits : (∀ n : Fin 8, s.fences[n].hits ≤ 255) → ∀ n : Fin 8, t.fences[n].hits ≤ 255
  missed : s.timer.missed ≤ 255 → t.timer.missed ≤ 255
  stands : ∀ i, itemDue i s.stat = true → itemDue i t.stat = true
  marked : ∀ i, (∀ c, i ≠ .record c) → ReportChanged s t i → itemDue i t.stat = true

/-- A report that changes over two events changes in one of them. -/
theorem reportChanged_split {s t u : State} {i : StatusItem} (h : ReportChanged s u i) : ReportChanged s t i ∨ ReportChanged t u i := by
  cases i with
  | flags =>
    obtain ⟨b, hb, hs, hu⟩ := h
    cases ht : t.stat.flags.getLsbD b with
    | false => exact .inr ⟨b, hb, ht, hu⟩
    | true => exact .inl ⟨b, hb, hs, ht⟩
  | lineState =>
    by_contra hno
    simp only [ReportChanged, not_or, not_not] at hno
    obtain ⟨⟨hair, hstop⟩, hair', hstop'⟩ := hno
    rcases h with h | h
    · exact h (hair'.trans hair)
    · exact h (hstop'.trans hstop)
  | _ =>
    by_contra hno
    simp only [ReportChanged, not_or, not_not] at hno
    exact h (hno.2.trans hno.1)

theorem Orderly.trans {s t u : State} (h : Orderly s t) (k : Orderly t u) : Orderly s u where
  mem := k.mem ∘ h.mem
  hits := k.hits ∘ h.hits
  missed := k.missed ∘ h.missed
  stands i := k.stands i ∘ h.stands i
  marked i hi hc := by
    rcases reportChanged_split hc with hc | hc
    · exact k.stands i (h.marked i hi hc)
    · exact k.marked i hi hc

/-- What an item reports, a camera's record excepted, is in t as in s. -/
def SameReport (s t : State) : StatusItem → Prop
  | .flags => t.stat.flags = s.stat.flags
  | .capture => t.stat.capture = s.stat.capture
  | .lineState => t.lines = s.lines
  | .syncGroup => t.timer.sync = s.timer.sync
  | .missed => t.timer.missed = s.timer.missed
  | .hits n => t.fences[n].hits = s.fences[n].hits
  | .probe => t.stat.probe = s.stat.probe
  | .zone z => t.floor.zones[z].status = s.floor.zones[z].status
  | .record _ => True
  | .cell x y => gridAt t.floor.cells x y = gridAt s.floor.cells x y

theorem SameReport.not_changed {s t : State} {i : StatusItem} (h : SameReport s t i) (hi : ∀ c, i ≠ .record c) : ¬ReportChanged s t i := by
  cases i with
  | flags =>
    rintro ⟨b, -, hs, ht⟩
    have hflags : t.stat.flags = s.stat.flags := h
    rw [hflags, hs] at ht
    cases ht
  | lineState =>
    have hlines : t.lines = s.lines := h
    rintro (hc | hc)
    · exact hc (by rw [hlines])
    · exact hc (by rw [hlines])
  | record c => exact absurd rfl (hi c)
  | _ => exact fun hc => hc h

/-- A change is orderly that leaves each item reporting what it did, or due. -/
theorem Orderly.of_marked {s t : State} (hmem : MemoryForm s → MemoryForm t)
    (hhits : (∀ n : Fin 8, s.fences[n].hits ≤ 255) → ∀ n : Fin 8, t.fences[n].hits ≤ 255)
    (hmissed : s.timer.missed ≤ 255 → t.timer.missed ≤ 255) (hd : ∀ i, itemDue i s.stat = true → itemDue i t.stat = true)
    (h : ∀ i, SameReport s t i ∨ itemDue i t.stat = true) : Orderly s t :=
  ⟨hmem, hhits, hmissed, hd, fun i hi hc => (h i).resolve_left fun hsame => hsame.not_changed hi hc⟩

/-- A change of the cameras and of blocks that are not reported. -/
theorem Orderly.of_eq {s t : State} (hm : t.mem = s.mem) (hf : t.fences = s.fences) (ht : t.timer = s.timer) (hl : t.lines = s.lines)
    (hfl : t.floor = s.floor) (hs : t.stat = s.stat) : Orderly s t := by
  refine .of_marked (fun h => by unfold MemoryForm at h ⊢; rwa [hm]) (by rw [hf]; exact id) (by rw [ht]; exact id)
    (by rw [hs]; exact fun _ => id) fun i => .inl ?_
  cases i <;> simp only [SameReport, hf, ht, hl, hfl, hs]

theorem Orderly.refl (s : State) : Orderly s s := .of_eq rfl rfl rfl rfl rfl rfl

theorem itemDue_setFlags (f : BitVec 12) (w : StatusWriter) (i : StatusItem) (h : itemDue i w = true) :
    itemDue i (setFlags f w) = true := by
  cases i <;> simp_all [itemDue, setFlags]

/-- A flag set leaves the flags word as it was, or due (R165). -/
theorem setFlags_due (f : BitVec 12) (w : StatusWriter) : (setFlags f w).flags = w.flags ∨ (setFlags f w).flagsDue = true := by
  by_cases h : w.flags ||| f = w.flags
  · exact .inl h
  · exact .inr (by simp [setFlags, h])

theorem flag_orderly (f : BitVec 12) (s : State) : Orderly s (s.flag f) := by
  refine .of_marked id id id (itemDue_setFlags f s.stat) fun i => ?_
  cases i with
  | flags => exact setFlags_due f s.stat
  | _ => exact .inl (by first | rfl | trivial)

/-- An error handed on leaves the record as it was, or due (R167). -/
theorem captureError_eq (e : ErrorRecord) (w : StatusWriter) :
    captureError e w = setFlags (errFlag e.cls) w ∨
      captureError e w = { setFlags (errFlag e.cls) w with capture := e, captureDue := true } := by
  simp only [captureError]
  split
  · exact .inr rfl
  · exact .inl rfl

theorem error_orderly (cls : ErrClass) (own : Bool) (a : Addr) (w : MWord) (s : State) : Orderly s (s.error cls own a w) := by
  have hflag := flag_orderly (errFlag cls) s
  rcases captureError_eq ⟨cls, own, a, w⟩ s.stat with h | h
  · rwa [State.error, State.modStat, h]
  · rw [State.error, State.modStat, h]
    refine hflag.trans (.of_marked id id id (fun i hi => ?_) fun i => ?_)
    · cases i <;> first | rfl | exact hi
    · cases i <;> first | exact .inr rfl | exact .inl rfl | exact .inl trivial

theorem paint_stat (f : Fin 32 → Fin 32 → Cell → Cell) (s : State) :
    (s.paint f).stat = { s.stat with cellDue := paintDue f s.floor.cells s.stat.cellDue } := by dsimp only [State.paint]

/-- Every change of a cell leaves its floor image word due (R118). -/
theorem paint_orderly (f : Fin 32 → Fin 32 → Cell → Cell) (s : State) : Orderly s (s.paint f) := by
  refine .of_marked ?_ ?_ ?_ (fun i h => ?_) fun i => ?_
  · simp only [MemoryForm, State.paint_mem]; exact id
  · simp only [State.paint_fences]; exact id
  · simp only [State.paint_timer]; exact id
  · rw [paint_stat]
    cases i <;> simp_all [itemDue, paintDue]
  · rw [paint_stat]
    cases i with
    | cell x y =>
      by_cases h : f x y (gridAt s.floor.cells x y) = gridAt s.floor.cells x y
      · exact .inl (by rw [SameReport, paint_cell, h])
      · exact .inr (by simp [itemDue, paintDue, h])
    | _ =>
      exact .inl (by simp only [SameReport, paint_stat, State.paint_lines, State.paint_timer, State.paint_fences, State.paint_zones])

/-- A change of a zone's status leaves its STATUS word due (R117). -/
theorem zoneStatus_orderly (z : Fin 16) (st : ZoneStatus) (r : Option Rect) (s : State) : Orderly s (s.zoneStatus z st r) := by
  refine .of_marked id id id (fun i h => ?_) fun i => ?_
  · cases i with
    | zone y =>
      simp only [itemDue, State.zoneStatus, State.modStat, State.modZone, Fin.getElem_fin, Vector.getElem_set] at h ⊢
      split
      · next he => simp_all
      · exact h
    | _ => exact h
  · cases i with
    | zone y =>
      simp only [SameReport, itemDue, State.zoneStatus, State.modStat, State.modZone, Fin.getElem_fin, Vector.getElem_set]
      split
      · next he =>
        by_cases hst : st = s.floor.zones[y].status
        · exact .inl hst
        · refine .inr ?_
          have hne : s.floor.zones[z.val].status ≠ st := by simp only [he]; exact fun h => hst h.symm
          simp [hne]
      · exact .inl rfl
    | record c => exact .inl trivial
    | _ => exact .inl rfl

/-- New hit counters leave their words due (R155). -/
theorem setFences_orderly {fs : Vector Fence 8} {s : State}
    (h : (∀ n : Fin 8, s.fences[n].hits ≤ 255) → ∀ n : Fin 8, fs[n].hits ≤ 255) : Orderly s (s.setFences fs) := by
  refine .of_marked id h id (fun i hi => ?_) fun i => ?_
  · cases i with
    | hits n => simp_all [itemDue, State.setFences]
    | _ => exact hi
  · cases i with
    | hits n =>
      by_cases hn : fs[n].hits = s.fences[n].hits
      · exact .inl hn
      · simp only [Fin.getElem_fin] at hn
        exact .inr (by simp [itemDue, State.setFences, hn])
    | record c => exact .inl trivial
    | _ => exact .inl rfl

/-- A change of the missed-frame counter leaves its word due (R129). -/
theorem setMissed_orderly {n : Nat} {s : State} (h : s.timer.missed ≤ 255 → n ≤ 255) : Orderly s (s.setMissed n) := by
  refine .of_marked id id h (fun i hi => ?_) fun i => ?_
  · cases i with
    | missed => simp_all [itemDue, State.setMissed]
    | _ => exact hi
  · cases i with
    | missed =>
      by_cases hn : n = s.timer.missed
      · exact .inl hn
      · exact .inr (by simp [itemDue, State.setMissed, hn])
    | record c => exact .inl trivial
    | _ => exact .inl rfl

/-- A change of the sync state leaves the sync group due (R120, R168). -/
theorem setSync_orderly (x : SyncState) (s : State) : Orderly s (s.setSync x) := by
  refine .of_marked id id id (fun i hi => ?_) fun i => ?_
  · cases i with
    | syncGroup => simp_all [itemDue, State.setSync]
    | _ => exact hi
  · cases i with
    | syncGroup =>
      by_cases hx : x = s.timer.sync
      · exact .inl hx
      · exact .inr (by simp [itemDue, State.setSync, hx])
    | record c => exact .inl trivial
    | _ => exact .inl rfl

/-- A change of the lines with the mark of the line state word (R143). -/
theorem lines_orderly (l : LineMonitor) (s : State) : Orderly s { s with lines := l }.lineDue := by
  refine .of_marked id id id (fun i hi => ?_) fun i => ?_
  · cases i <;> first | rfl | exact hi
  · cases i <;> first | exact .inr rfl | exact .inl rfl | exact .inl trivial

/-- A word that reaches memory leaves its form (log 1). -/
theorem write_orderly (a : Addr) (w : MWord) (s : State) : Orderly s (s.write a w) := by
  refine .of_marked (memoryForm_write · a w) id id (fun _ => id) fun i => .inl ?_
  cases i <;> first | rfl | trivial

theorem landWrite_orderly (a : Access) (s : State) : Orderly s (landWrite a s) := by
  unfold landWrite
  split
  · exact write_orderly ..
  · exact .refl s

/-- A change of the timer that keeps sync state and missed-frame counter. -/
theorem modTimer_orderly {f : FrameTimer → FrameTimer} {s : State} (hs : (f s.timer).sync = s.timer.sync)
    (hm : (f s.timer).missed = s.timer.missed) : Orderly s (s.modTimer f) := by
  refine .of_marked id id (fun h => hm.le.trans h) (fun _ => id) fun i => .inl ?_
  cases i <;> first | exact hs | exact hm | rfl | trivial

theorem getElem_modFence_hits (n m : Fin 8) {f : Fence → Fence} {s : State} (hf : ∀ e, (f e).hits = e.hits) :
    (s.modFence n f).fences[m].hits = s.fences[m].hits := by
  simp only [State.modFence, Fin.getElem_fin, Vector.getElem_set]
  split
  · next he => rw [hf]; simp only [he]
  · rfl

/-- A change of a fence entry that keeps its hit counter. -/
theorem modFence_orderly (n : Fin 8) {f : Fence → Fence} (hf : ∀ e, (f e).hits = e.hits) (s : State) : Orderly s (s.modFence n f) := by
  refine .of_marked id (fun h m => (getElem_modFence_hits n m hf).le.trans (h m)) id (fun _ => id) fun i => .inl ?_
  cases i with
  | hits m => exact getElem_modFence_hits n m hf
  | record c => trivial
  | _ => rfl

/-- A change of a zone entry that keeps its status. -/
theorem modZone_orderly (z : Fin 16) {f : Zone → Zone} (hf : ∀ e, (f e).status = e.status) (s : State) : Orderly s (s.modZone z f) := by
  refine .of_marked id id id (fun _ => id) fun i => .inl ?_
  cases i with
  | zone y =>
    simp only [SameReport, State.modZone, Fin.getElem_fin, Vector.getElem_set]
    split
    · next he => rw [hf]; simp only [he]
    · rfl
  | record c => trivial
  | _ => rfl

/-- A change of the Status Writer that leaves what it reports, its marks set at most. -/
theorem modStat_orderly {f : StatusWriter → StatusWriter} {s : State} (hd : ∀ i, itemDue i s.stat = true → itemDue i (f s.stat) = true)
    (hflags : (f s.stat).flags = s.stat.flags) (hcapture : (f s.stat).capture = s.stat.capture)
    (hprobe : (f s.stat).probe = s.stat.probe ∨ (f s.stat).probeDue = true) : Orderly s (s.modStat f) := by
  refine .of_marked id id id hd fun i => ?_
  cases i with
  | flags => exact .inl hflags
  | capture => exact .inl hcapture
  | probe => exact hprobe
  | record c => exact .inl trivial
  | _ => exact .inl rfl

/-- Flags the host clears are not newly set (R165). -/
theorem clearFlags_orderly (f : BitVec 12) (s : State) : Orderly s (s.modStat (clearFlags f)) where
  mem := id
  hits := id
  missed := id
  stands i h := by cases i <;> exact h
  marked i hi hc := by
    cases i with
    | flags =>
      obtain ⟨b, -, hs, ht⟩ := hc
      have hand : (s.stat.flags &&& ~~~f).getLsbD b = true := ht
      rw [BitVec.getLsbD_and, hs] at hand
      cases hand
    | record c => exact absurd rfl (hi c)
    | lineState => rcases hc with hc | hc <;> exact absurd rfl hc
    | _ => exact absurd rfl hc

theorem clearCapture_orderly (s : State) : Orderly s (s.modStat clearCapture) := by
  refine .of_marked id id id (fun i h => ?_) fun i => ?_
  · cases i <;> simp_all [itemDue, clearCapture]
  · cases i with
    | capture =>
      by_cases h : s.stat.capture = emptyError
      · exact .inl h.symm
      · exact .inr (by simp [itemDue, State.modStat, clearCapture, h])
    | record c => exact .inl trivial
    | _ => exact .inl rfl

end Sys2Proof.Machine

/-! The elementary changes, and the course of changes that an operation on the cameras is. -/

namespace Sys2Proof.Machine

/-! Elementary changes -/

/-- An IDLE camera has nothing queued, and a WAITING one has a reason: what an event may break in a camera and makes good before its end
(R42, R48). -/
def AtRest (k : Camera) : Prop :=
  (k.state = .idle → k.queue = []) ∧ (k.state = .waiting → k.waitStop = true ∨ k.waitTally = true ∨ k.waitFloor = true)

/-- A camera whose active cue is removed (R42, R73, R109). -/
def cueGone (k : Camera) : Camera :=
  { k with active := none, state := .idle, waitStop := false, waitTally := false, waitFloor := false, waitCount := 0 }

/-- A camera whose marks are cleared (R56, R59). -/
def marksGone (k : Camera) : Camera := { k with halt := false, abandon := false }

/-- A camera whose move begins (R54). -/
def begun (k : Camera) : Camera :=
  let k :=
    { k with
      stack := (match k.active with | some q => stackAtBegin q k | none => k.stack)
      halt := false, abandon := false, waitStop := false, waitTally := false, waitFloor := false, p := 0
      waitCount := 0, state := .moving }
  { k with rt := rateTarget k, rate := rateTarget k }

/-- The marks that fit the state into which a move under way is driven (R55, R57, R58, R60). -/
inductive Driven (k : Camera) : CamState → Bool → Bool → Prop where
  | slows (a : Bool) : Driven k .halting true a
  | resumes : k.state = .halted ∨ k.abandon = false → Driven k .moving false k.abandon
  | stops : k.state = .moving ∨ k.abandon = false → Driven k .halted true k.abandon
  | rests : k.state = .halting → k.abandon = false → Driven k .halted k.halt k.abandon

/-- An elementary change of one camera, `k0` being the camera before the event. The index says that the camera may no longer be at rest. -/
inductive CameraChange (k0 : Camera) : Bool → Camera → Camera → Prop where
  /-- what the mailbox, the results and the banks show -/
  | notes (k : Camera) (r : ResultGroup) (n : BitVec 16) (st : Bool) (l : Vector Latch 4) (bank : Bank) (bl : Nat) :
    (k.blocked ≤ 255 → bl ≤ 255) →
    CameraChange k0 false k { k with result := r, resultCount := n, stale := st, latches := l, activeBank := bank, blocked := bl }
  /-- a cue without a move under way ends -/
  | cueEnds (k : Camera) : activeState k.state = true → movingState k.state = false → CameraChange k0 true k (cueGone k)
  /-- a move under way ends -/
  | moveEnds (k : Camera) : movingState k.state = true → CameraChange k0 true k (marksGone (cueGone k))
  /-- a ROAMING camera gives back floor -/
  | parks (k : Camera) (r : Rect) : enabledState k.state = true → isRoaming k = true → CameraChange k0 false k { k with held := some r }
  /-- a claim is granted -/
  | claims (k : Camera) (r : Rect) : k.state = .waiting → k.claim = some r →
    CameraChange k0 true k { k with held := some r, waitFloor := false }
  /-- a planned move with no reason left begins -/
  | begins (k : Camera) : k.state = .waiting → k.waitStop = false → k.waitTally = false → k.waitFloor = false →
    CameraChange k0 false k (begun k)
  /-- a cue is planned -/
  | plans (k : Camera) (req : MoveRequest) (pl : Plan) (claim : Option Rect) (floor : Bool) : k.state = .fetching →
    planMove k.cfg k.setpoints req = .plan pl → (claim.isSome = true → isRoaming k = true) →
    CameraChange k0 true k (writePlan pl claim floor k)
  /-- the head of the queue is taken -/
  | takes (k : Camera) (q : Cue) (rest : List Cue) : k.state = .idle → k.queue = q :: rest →
    CameraChange k0 false k { k with queue := rest, active := some q, state := .fetching }
  /-- the queue changes -/
  | queues (k : Camera) (l : List Cue) : l.length ≤ 4 →
    CameraChange k0 (decide (k.active = none ∧ k.state = .idle ∧ l ≠ [])) k { k with queue := l }
  /-- a move under way is slowed, resumed or stopped -/
  | drives (k : Camera) (st : CamState) (h a l : Bool) (r x : Nat) : movingState k.state = true → Driven k st h a →
    (k.rate ≤ 256 → r ≤ 256) → (k.override ≤ 256 → k.rt ≤ 256 → x ≤ 256) →
    CameraChange k0 false k { k with state := st, halt := h, abandon := a, stopLatch := l, rate := r, rt := x }
  /-- the stop latch, the on-air state, the override and the rate target change -/
  | tunes (k : Camera) (l o : Bool) (v x : Nat) : (1 ≤ k.override ∧ k.override ≤ 256 → 1 ≤ v ∧ v ≤ 256) →
    (k.override ≤ 256 → k.rt ≤ 256 → x ≤ 256) →
    CameraChange k0 false k { k with stopLatch := l, onAir := o, override := v, rt := x }
  /-- the reasons of a waiting camera change; where one may go, the camera may no longer be at rest -/
  | reasons (k : Camera) (b st ta : Bool) : k.state = .waiting →
    (b = false → (k.waitStop = true → st = true) ∧ (k.waitTally = true → ta = true)) →
    CameraChange k0 b k { k with waitStop := st, waitTally := ta }
  /-- the halt mark is cleared where none stands -/
  | unmarks (k : Camera) : k.state ≠ .halting → k.state ≠ .halted → CameraChange k0 false k { k with halt := false }
  /-- DIRECT is entered -/
  | directs (k : Camera) : k.state = .idle → CameraChange k0 false k { k with state := .direct, direct := some k.setpoints }
  /-- DIRECT is left -/
  | releases (k : Camera) : k.state = .direct → CameraChange k0 true k { k with state := .idle, direct := none }
  /-- a direct target changes -/
  | steers (k : Camera) (a : Axis) (v : Int) : k.state = .direct → inMask k.cfg.mask a = true →
    CameraChange k0 false k { k with direct := k.direct.map fun t => t.set a (clampInt k.cfg.axes[a].min k.cfg.axes[a].max v) }
  /-- an adoption is begun -/
  | enables (k : Camera) (ad : Adoption) : k.state = .offline →
    CameraChange k0 false k { k with state := .adopting, stale := false, adoption := some ad }
  /-- an adoption goes on -/
  | reads (k : Camera) (ad : Option Adoption) : ad.isSome = k.adoption.isSome → CameraChange k0 false k { k with adoption := ad }
  /-- an adoption is given up -/
  | leaves (k : Camera) : k.state = .adopting ∨ k.adoption.isSome = true →
    CameraChange k0 false k { k with state := .offline, adoption := none, queue := [], cfg := emptyConfig }
  /-- an adoption succeeds -/
  | adopts (k : Camera) (t : List (Option (BitVec 16))) (l o : Bool) (held : Option Rect) : k0.adoption.isSome = true →
    k.adoption.isSome = true → outOfLimits t = 0 → (held.isSome = true → (pendingConfig t).kind = some .roaming) →
    CameraChange k0 true k (adoptedCamera t l o held k)
  /-- a wait is counted -/
  | waits (k : Camera) (n : Nat) : (k.waitCount ≤ 65535 → n ≤ 65535) → CameraChange k0 false k { k with waitCount := n }
  /-- a tick moves the camera as it stood before the event -/
  | serves (k : Camera) : k = k0 → CameraChange k0 false k (serviceCamera (countWait k))

/-- What a change of camera c from k to k' does to the cells: it frees cells of c, and it takes FREE cells only for a ROAMING camera (R103). -/
def CellsOf (c : Cam) (k k' : Camera) (g h : Grid Cell) : Prop :=
  ∀ x y : Fin 32, gridAt h x y = gridAt g x y ∨ gridAt g x y = .held c ∧ gridAt h x y = .free ∨
    gridAt g x y = .free ∧ gridAt h x y = .held c ∧ enabledState k'.state = true ∧
      (isRoaming k' = true ∨ k.claim.isSome = true ∧ k'.cfg = k.cfg)

/-- A change of the zones, with the cells it takes (R113, R114, R116). -/
inductive ZoneChange (f g : FloorMap) : Prop where
  /-- bounds and settings -/
  | bounds : g.cells = f.cells → (∀ z : Fin 16, g.zones[z].status = f.zones[z].status ∧ g.zones[z].applied = f.zones[z].applied) →
    ZoneChange f g
  | restates (z : Fin 16) (st : ZoneStatus) : f.zones[z].status ≠ .active → st ≠ .active → g.cells = f.cells →
    g.zones = f.zones.set z { f.zones[z] with status := st, applied := none } → ZoneChange f g
  | applies (z : Fin 16) (r : Rect) : f.zones[z].status ≠ .active →
    (∀ x y : Fin 32, inRect r x y = true → isHeld (gridAt f.cells x y) = false) →
    (∀ x y : Fin 32, gridAt g.cells x y = if inRect r x y && gridAt f.cells x y == .free then .blocked else gridAt f.cells x y) →
    g.zones = f.zones.set z { f.zones[z] with status := .active, applied := some r } → ZoneChange f g
  | removes (z : Fin 16) : f.zones[z].status = .active →
    (∀ x y : Fin 32, gridAt g.cells x y =
      if f.zones[z].applied.any (inRect · x y) && !otherZone f z x y && gridAt f.cells x y == .blocked then .free
      else gridAt f.cells x y) →
    g.zones = f.zones.set z { f.zones[z] with status := .inactive, applied := none } → ZoneChange f g

/-- An elementary change of the part, from the cameras that may not be at rest and the state to those after it; `s0` is the state before
the event. -/
inductive Change (s0 : State) : Set Cam × State → Set Cam × State → Prop where
  | cam (P : Set Cam) (s t : State) (c : Cam) (b : Bool) (k : Camera) : CameraChange (s0.cam c) b (s.cam c) k → t.cams = s.cams.set c k →
    CellsOf c (s.cam c) k s.floor.cells t.floor.cells → t.floor.zones = s.floor.zones → Orderly s t →
    Change s0 (P, s) (if b then insert c P else P, t)
  | all (P : Set Cam) (s t : State) : (∀ d, t.cam d = s.cam d ∨ CameraChange (s0.cam d) false (s.cam d) (t.cam d)) → t.floor = s.floor →
    Orderly s t → Change s0 (P, s) (P, t)
  | disable (P : Set Cam) (s t : State) (c : Cam) : enabledState (s.cam c).state = true → t.cams = s.cams.set c (disabledCamera (s.cam c)) →
    (∀ x y : Fin 32, gridAt t.floor.cells x y = if gridAt s.floor.cells x y = .held c then .free else gridAt s.floor.cells x y) →
    t.floor.zones = s.floor.zones → Orderly s t → Change s0 (P, s) (P, t)
  | zone (P : Set Cam) (s t : State) : t.cams = s.cams → ZoneChange s.floor t.floor → Orderly s t → Change s0 (P, s) (P, t)
  | rest (P Q : Set Cam) (s : State) : (∀ d ∈ P, d ∈ Q ∨ AtRest (s.cam d)) → Change s0 (P, s) (Q, s)

/-- From s, where the cameras outside P are at rest, elementary changes lead to t, where those outside Q are. -/
def Course (s0 : State) (P : Set Cam) (s : State) (Q : Set Cam) (t : State) : Prop := Relation.ReflTransGen (Change s0) (P, s) (Q, t)

variable {s0 s t u : State} {P Q R : Set Cam} {c : Cam}

theorem Course.refl : Course s0 P s P s := Relation.ReflTransGen.refl

theorem Course.trans (h : Course s0 P s Q t) (k : Course s0 Q t R u) : Course s0 P s R u := Relation.ReflTransGen.trans h k

theorem Course.single (h : Change s0 (P, s) (Q, t)) : Course s0 P s Q t := Relation.ReflTransGen.single h

/-- A change of the rest of the part alone. -/
theorem course_frame (hc : t.cams = s.cams) (hf : t.floor = s.floor) (h : Orderly s t) : Course s0 P s P t :=
  .single (.all P s t (fun d => .inl (State.cam_congr hc d)) hf h)

/-- A change of blocks that are not reported. -/
theorem course_block (hc : t.cams = s.cams) (hf : t.floor = s.floor) (hm : t.mem = s.mem) (hfe : t.fences = s.fences)
    (ht : t.timer = s.timer) (hl : t.lines = s.lines) (hs : t.stat = s.stat) : Course s0 P s P t :=
  course_frame hc hf (.of_eq hm hfe ht hl hf hs)

theorem course_flag (f : BitVec 12) : Course s0 P s P (s.flag f) := course_frame rfl rfl (flag_orderly f s)

theorem course_error (cls : ErrClass) (own : Bool) (a : Addr) (w : MWord) : Course s0 P s P (s.error cls own a w) :=
  course_frame rfl rfl (error_orderly cls own a w s)

theorem course_open (c : Cam) : Course s0 P s (insert c P) s := .single (.rest _ _ s fun _ h => .inl (Set.mem_insert_of_mem c h))

theorem course_close (h : AtRest (s.cam c)) : Course s0 (insert c P) s P s :=
  .single (.rest _ _ s fun d hd => by
    rcases hd with rfl | hd
    · exact .inr h
    · exact .inl hd)

theorem modCam_orderly (c : Cam) (f : Camera → Camera) (s : State) : Orderly s (s.modCam c f) := .of_eq rfl rfl rfl rfl rfl rfl

/-- A change of one camera that stays at rest if it was. -/
theorem course_modCam {f : Camera → Camera} (h : CameraChange (s0.cam c) false (s.cam c) (f (s.cam c))) :
    Course s0 P s P (s.modCam c f) :=
  .single (.cam P s _ c false _ h rfl (fun _ _ => .inl rfl) rfl (modCam_orderly c f s))

/-- A change of one camera that may no longer be at rest. -/
theorem course_modCam_open {f : Camera → Camera} (h : CameraChange (s0.cam c) true (s.cam c) (f (s.cam c))) :
    Course s0 P s (insert c P) (s.modCam c f) :=
  .single (.cam P s _ c true _ h rfl (fun _ _ => .inl rfl) rfl (modCam_orderly c f s))

@[simp] theorem cam_modCam_self (c : Cam) (f : Camera → Camera) (s : State) : (s.modCam c f).cam c = f (s.cam c) := by
  simp [State.modCam, State.setCam, State.cam]

theorem cam_modCam_other {c d : Cam} (h : d ≠ c) (f : Camera → Camera) (s : State) : (s.modCam c f).cam d = s.cam d :=
  (modCam_touches c f s).others d h

theorem atRest_of_state {k : Camera} (hi : k.state ≠ .idle) (hw : k.state ≠ .waiting) : AtRest k :=
  ⟨fun h => absurd h hi, fun h => absurd h hw⟩

/-! Results, and the end of the active cue -/

theorem recordResult_course (c : Cam) (tag : BitVec 8) (kind : BitVec 4) (code : Code) (detail : BitVec 16) :
    Course s0 P s P (recordResult c tag kind code detail s) :=
  (course_modCam (.notes (s.cam c) _ _ _ _ _ _ id)).trans (course_flag _)

theorem recordResult_cam (c : Cam) (tag : BitVec 8) (kind : BitVec 4) (code : Code) (detail : BitVec 16) (s : State) :
    (recordResult c tag kind code detail s).cam c = withResult tag kind code detail (s.cam c) := by
  rw [recordResult_eq, State.flag_cam, cam_modCam_self]

theorem recordResult_state (c : Cam) (tag : BitVec 8) (kind : BitVec 4) (code : Code) (detail : BitVec 16) (s : State) :
    ((recordResult c tag kind code detail s).cam c).state = (s.cam c).state := by rw [recordResult_cam]; rfl

/-- The end of the active cue is a result, if there is a cue, and the cue's removal. -/
theorem endActive_split (c : Cam) (code : Code) (detail : BitVec 16) (s : State) :
    ∃ u, (∀ s0 P, Course s0 P s P u) ∧ (u.cam c).state = (s.cam c).state ∧ (u.cam c).queue = (s.cam c).queue ∧
      endActive c code detail s = u.modCam c cueGone := by
  unfold endActive
  split
  · exact ⟨_, fun _ _ => recordResult_course .., by rw [recordResult_cam]; rfl, by rw [recordResult_cam]; rfl, rfl⟩
  · exact ⟨s, fun _ _ => .refl, rfl, rfl, rfl⟩

theorem endActive_state (c : Cam) (code : Code) (detail : BitVec 16) (s : State) : ((endActive c code detail s).cam c).state = .idle := by
  obtain ⟨u, -, -, -, h⟩ := endActive_split c code detail s
  rw [h, cam_modCam_self]; rfl

theorem endActive_queue (c : Cam) (code : Code) (detail : BitVec 16) (s : State) :
    ((endActive c code detail s).cam c).queue = (s.cam c).queue := by
  obtain ⟨u, -, -, hq, h⟩ := endActive_split c code detail s
  rw [h, cam_modCam_self]; exact hq

theorem endActive_course {code : Code} {detail : BitVec 16} (ha : activeState (s.cam c).state = true) (hm : movingState (s.cam c).state = false) :
    Course s0 P s (insert c P) (endActive c code detail s) := by
  obtain ⟨u, hu, hst, -, h⟩ := endActive_split c code detail s
  rw [h]
  exact (hu s0 P).trans (course_modCam_open (.cueEnds _ (hst ▸ ha) (hst ▸ hm)))

/-- The end of a move under way, with its marks. -/
theorem endMove_course {code : Code} {detail : BitVec 16} (hm : movingState (s.cam c).state = true) :
    Course s0 P s (insert c P) ((endActive c code detail s).modCam c marksGone) := by
  obtain ⟨u, hu, hst, -, h⟩ := endActive_split c code detail s
  rw [h, State.modCam_modCam]
  exact (hu s0 P).trans (course_modCam_open (.moveEnds _ (hst ▸ hm)))

/-! Begin, try and planning -/

theorem beginMove_eq (c : Cam) (s : State) : beginMove c s = s.modCam c begun := rfl

theorem beginMove_course (hw : (s.cam c).state = .waiting) (hs : (s.cam c).waitStop = false) (ht : (s.cam c).waitTally = false)
    (hf : (s.cam c).waitFloor = false) : Course s0 P s P (beginMove c s) := course_modCam (.begins _ hw hs ht hf)

theorem beginMove_state (c : Cam) (s : State) : ((beginMove c s).cam c).state = .moving := by rw [beginMove_eq, cam_modCam_self]; rfl

theorem beginMove_queue (c : Cam) (s : State) : ((beginMove c s).cam c).queue = (s.cam c).queue := by
  rw [beginMove_eq, cam_modCam_self]; rfl

theorem moving_atRest {k : Camera} (h : k.state = .moving) : AtRest k := atRest_of_state (by simp [h]) (by simp [h])

/-- How an operation on camera c comes out that may have ended its cue: it is a course, a camera whose cue ended is IDLE, and one whose cue
goes on is at rest. -/
structure Outcome (s0 : State) (P : Set Cam) (c : Cam) (s : State) (r : State × Bool) : Prop where
  course : Course s0 P s (insert c P) r.1
  ended : r.2 = true → (r.1.cam c).state = .idle
  rest : r.2 = false → AtRest (r.1.cam c)
  queue : (r.1.cam c).queue = (s.cam c).queue

/-- A cue that ends without a move under way. -/
theorem outcome_endActive {code : Code} {detail : BitVec 16} (ha : activeState (s.cam c).state = true)
    (hm : movingState (s.cam c).state = false) : Outcome s0 P c s (endActive c code detail s, true) :=
  ⟨endActive_course ha hm, fun _ => endActive_state .., nofun, endActive_queue ..⟩

theorem outcome_beginMove (hw : (s.cam c).state = .waiting) (hs : (s.cam c).waitStop = false) (ht : (s.cam c).waitTally = false)
    (hf : (s.cam c).waitFloor = false) : Outcome s0 P c s (beginMove c s, false) :=
  ⟨(beginMove_course hw hs ht hf).trans (course_open c), nofun, fun _ => moving_atRest (beginMove_state c s), beginMove_queue c s⟩

/-- The cells a grant takes. -/
theorem holdRect_cellsOf {k k' : Camera} (r : Rect)
    (h : enabledState k'.state = true ∧ (isRoaming k' = true ∨ k.claim.isSome = true ∧ k'.cfg = k.cfg)) :
    CellsOf c k k' s.floor.cells (s.holdRect c r).floor.cells := by
  intro x y
  rw [holdRect_cell]
  split
  · next hc => exact .inr (.inr ⟨hc.2, rfl, h⟩)
  · exact .inl rfl

theorem holdRect_zones (c : Cam) (r : Rect) (s : State) : (s.holdRect c r).floor.zones = s.floor.zones := State.paint_zones _ s

theorem holdRect_orderly (c : Cam) (r : Rect) (s : State) : Orderly s (s.holdRect c r) := paint_orderly _ s

/-- The cells given back. -/
theorem freeOutside_cellsOf {k k' : Camera} (r : Option Rect) : CellsOf c k k' s.floor.cells (s.freeOutside c r).floor.cells := by
  intro x y
  rw [freeOutside_cell]
  split
  · next h => exact .inr (.inl ⟨h.1, rfl⟩)
  · exact .inl rfl

theorem freeOutside_zones (c : Cam) (r : Option Rect) (s : State) : (s.freeOutside c r).floor.zones = s.floor.zones :=
  State.paint_zones _ s

theorem freeOutside_orderly (c : Cam) (r : Option Rect) (s : State) : Orderly s (s.freeOutside c r) := paint_orderly _ s

/-- The grant of a claim. -/
theorem claim_course {r : Rect} (hw : (s.cam c).state = .waiting) (hr : (s.cam c).claim = some r) :
    Course s0 P s (insert c P) ((s.holdRect c r).modCam c fun k => { k with held := some r, waitFloor := false }) := by
  refine .single (.cam P s _ c true { s.cam c with held := some r, waitFloor := false } (.claims _ r hw hr) ?_ ?_ ?_ ?_)
  · simp only [State.modCam, State.setCam, State.holdRect_cams, State.holdRect_cam]
  · exact holdRect_cellsOf r ⟨by simp [hw, enabledState], .inr ⟨by simp [hr], rfl⟩⟩
  · exact holdRect_zones c r s
  · exact (holdRect_orderly c r s).trans (modCam_orderly ..)

theorem outcome_tryClaim (hw : (s.cam c).state = .waiting) (hs : (s.cam c).waitStop = false) (ht : (s.cam c).waitTally = false)
    (hf : (s.cam c).waitFloor = true) : Outcome s0 P c s (tryClaim c s) := by
  have hrest : AtRest (s.cam c) := ⟨fun h => by simp [hw] at h, fun _ => .inr (.inr hf)⟩
  have hstay : Outcome s0 P c s (s, false) := ⟨course_open c, nofun, fun _ => hrest, rfl⟩
  obtain ⟨_, h⟩ | ⟨r, hr, ⟨_, h⟩ | ⟨_, _, h⟩ | ⟨_, _, h⟩⟩ := tryClaim_cases c s <;> rw [h]
  · exact hstay
  · exact outcome_endActive (by simp [hw, activeState]) (by simp [hw, movingState])
  · exact hstay
  · have hg := claim_course (s0 := s0) (P := P) hw hr
    have hb : Outcome s0 (insert c P) c ((s.holdRect c r).modCam c fun k => { k with held := some r, waitFloor := false }) _ :=
      outcome_beginMove (by simpa using hw) (by simpa using hs) (by simpa using ht) (by simp)
    exact ⟨by simpa using hg.trans hb.course, hb.ended, hb.rest, by simpa using hb.queue⟩

/-- What a waiting camera does when a reason has gone (R51, R52). -/
theorem outcome_reasonsChanged (hw : (s.cam c).state = .waiting) : Outcome s0 P c s (reasonsChanged c s) := by
  unfold reasonsChanged
  dsimp only
  split
  · next h =>
    obtain ⟨-, hs, ht⟩ := h
    split
    · next hf => exact outcome_tryClaim hw (by simpa using hs) (by simpa using ht) hf
    · next hf => exact outcome_beginMove hw (by simpa using hs) (by simpa using ht) (by simpa using hf)
  · next h =>
    refine ⟨course_open c, nofun, fun _ => ⟨fun hi => by simp [hw] at hi, fun _ => ?_⟩, rfl⟩
    by_contra hno
    exact h ⟨hw, by simp_all, by simp_all⟩

theorem planClaim_roaming {pl : Plan} (h : (planClaim c pl s).1.isSome = true) : isRoaming (s.cam c) = true := by
  unfold planClaim at h
  dsimp only at h
  split at h
  · assumption
  · cases h

theorem outcome_planActive (req : MoveRequest) (hf : (s.cam c).state = .fetching) : Outcome s0 P c s (planActive c req s) := by
  have hend : ∀ code detail, Outcome s0 P c s (endActive c code detail s, true) := fun code detail =>
    outcome_endActive (by simp [hf, activeState]) (by simp [hf, movingState])
  unfold planActive
  dsimp only
  split
  · exact hend ..
  · exact hend ..
  · next pl hpl =>
    have hclaim := @planClaim_roaming s c pl
    rcases hpc : planClaim c pl s with ⟨claim, blocked, floor⟩
    rw [hpc] at hclaim
    dsimp only
    split
    · exact hend ..
    · have hp : Course s0 P s (insert c P) (s.modCam c (writePlan pl claim floor)) :=
        course_modCam_open (.plans _ req pl claim floor hf hpl hclaim)
      have hr : Outcome s0 (insert c P) c (s.modCam c (writePlan pl claim floor)) _ :=
        outcome_reasonsChanged (by rw [cam_modCam_self]; rfl)
      exact ⟨by simpa using hp.trans hr.course, hr.ended, hr.rest, hr.queue.trans (by rw [cam_modCam_self]; rfl)⟩

/-! Taking the head -/

/-- A camera taken for FETCHING: planning and the end of a cue do not ask it whether it is IDLE or FETCHING (R48, R50). -/
def asFetching (k : Camera) : Camera := { k with state := .fetching }

theorem endActive_asFetching (c : Cam) (code : Code) (detail : BitVec 16) (s : State) :
    endActive c code detail (s.modCam c asFetching) = endActive c code detail s := by
  simp only [endActive, cam_modCam_self]
  have hact : (asFetching (s.cam c)).active = (s.cam c).active := rfl
  rw [hact]
  split
  · simp only [recordResult_eq, State.modCam_flag, State.modCam_modCam]; rfl
  · simp only [State.modCam_modCam]; rfl

theorem planActive_asFetching (c : Cam) (req : MoveRequest) (s : State) :
    planActive c req (s.modCam c asFetching) = planActive c req s := by
  have hclaim : ∀ pl, planClaim c pl (s.modCam c asFetching) = planClaim c pl s := fun pl => by
    simp only [planClaim, cam_modCam_self, State.modCam_floor]; rfl
  have hwrite : ∀ pl claim floor, (s.modCam c asFetching).modCam c (writePlan pl claim floor) = s.modCam c (writePlan pl claim floor) :=
    fun pl claim floor => by rw [State.modCam_modCam]; rfl
  simp only [planActive, cam_modCam_self, hclaim, hwrite, endActive_asFetching]
  rfl

/-- The cue at the head of the queue becomes the active cue of a camera taken for FETCHING. -/
theorem take_course {q : Cue} {rest : List Cue} (hi : (s.cam c).state = .idle) (hq : (s.cam c).queue = q :: rest) :
    Course s0 P s P ((s.modCam c fun k => { k with queue := rest, active := some q }).modCam c asFetching) := by
  rw [State.modCam_modCam]
  exact course_modCam (.takes _ q rest hi hq)

theorem takeHeadN_course (n : Nat) (hi : (s.cam c).state = .idle) (hn : (s.cam c).queue.length ≤ n) :
    Course s0 (insert c P) s P (takeHeadN n c s) := by
  induction n generalizing s with
  | zero => exact course_close ⟨fun _ => List.length_eq_zero_iff.mp (Nat.le_zero.mp hn), fun h => by simp [hi] at h⟩
  | succ n ih =>
    unfold takeHeadN
    dsimp only
    split
    · next q rest _ hq =>
      have htake := take_course (s0 := s0) (P := insert c P) hi hq
      have hrest : rest.length ≤ n := by rw [hq] at hn; simpa using hn
      split
      · have hclosed := htake.trans (course_close (atRest_of_state (by rw [cam_modCam_self]; nofun) (by rw [cam_modCam_self]; nofun)))
        exact hclosed.trans (course_block rfl rfl rfl rfl rfl rfl rfl)
      · split
        · rw [← endActive_asFetching]
          have hend : Outcome s0 (insert c P) c ((s.modCam c fun k => { k with queue := rest, active := some q }).modCam c asFetching)
              (endActive c .stackEmpty 0 ((s.modCam c fun k => { k with queue := rest, active := some q }).modCam c asFetching), true) :=
            outcome_endActive (by rw [cam_modCam_self]; rfl) (by rw [cam_modCam_self]; rfl)
          have hc := htake.trans hend.course
          rw [Set.insert_idem] at hc
          refine hc.trans (ih (hend.ended rfl) ?_)
          rw [hend.queue]
          simpa [asFetching] using hrest
        · next rec _ _ =>
          rw [← planActive_asFetching]
          have hplan := outcome_planActive (s0 := s0) (P := insert c P) (c := c)
            (s := (s.modCam c fun k => { k with queue := rest, active := some q }).modCam c asFetching)
            (returnRequest (s.cam c) q rec) (by rw [cam_modCam_self]; rfl)
          have hc := htake.trans hplan.course
          rw [Set.insert_idem] at hc
          split
          · next he =>
            refine hc.trans (ih (hplan.ended he) ?_)
            rw [hplan.queue]
            simpa [asFetching] using hrest
          · next he => exact hc.trans (course_close (hplan.rest (by simpa using he)))
    · next hno =>
      refine course_close ⟨fun _ => ?_, fun h => by simp [hi] at h⟩
      cases hq : (s.cam c).queue with
      | nil => rfl
      | cons q rest => exact absurd hq (hno q rest hi)

theorem takeHead_course (hi : (s.cam c).state = .idle) : Course s0 (insert c P) s P (takeHead c s) := takeHeadN_course _ hi le_rfl

theorem nextHead_course {r : State × Bool} (h : Outcome s0 P c s r) : Course s0 P s P (nextHead c r) := by
  unfold nextHead
  split
  · next he => exact h.course.trans (takeHead_course (h.ended he))
  · next he => exact h.course.trans (course_close (h.rest (by simpa using he)))

/-! The release examination, and the ends of a move -/

theorem inWaitingSet_iff {k : Camera} :
    inWaitingSet k = true ↔ k.state = .waiting ∧ k.waitFloor = true ∧ k.waitStop = false ∧ k.waitTally = false := by
  simp [inWaitingSet, and_assoc]

theorem inWaitingSet_of_state {k : Camera} (h : k.state ≠ .waiting) : inWaitingSet k = false := by simp [inWaitingSet, h]

theorem examOne_course (c : Cam) : Course s0 P s P (examOne s c) := by
  unfold examOne
  split
  · next h =>
    obtain ⟨hw, hf, hs, ht⟩ := inWaitingSet_iff.mp h
    exact nextHead_course (outcome_tryClaim hw hs ht hf)
  · exact .refl

/-- A fold of operations each of which is a course is one. -/
theorem foldl_course {α : Type} {f : State → α → State} (h : ∀ s a, Course s0 P s P (f s a)) (l : List α) (s : State) :
    Course s0 P s P (l.foldl f s) := by
  induction l generalizing s with
  | nil => exact .refl
  | cons a l ih => exact (h s a).trans (ih _)

theorem releaseExam_course : Course s0 P s P (releaseExam s) := foldl_course (fun _ c => examOne_course c) _ s

theorem examOne_cam {d : Cam} (h : inWaitingSet (s.cam d) = false) (c : Cam) : (examOne s c).cam d = s.cam d := by
  unfold examOne
  split
  · next hc =>
    refine (nextHead_touches (tryClaim_touches c s)).others d ?_
    rintro rfl
    rw [h] at hc; cases hc
  · rfl

/-- The release examination leaves every camera that does not wait for floor (R107). -/
theorem releaseExam_cam {d : Cam} (h : inWaitingSet (s.cam d) = false) : (releaseExam s).cam d = s.cam d := by
  have hfold : ∀ (l : List Cam) (u : State), u.cam d = s.cam d → (l.foldl examOne u).cam d = s.cam d := by
    intro l
    induction l with
    | nil => exact fun u hu => hu
    | cons c l ih => exact fun u hu => ih _ ((examOne_cam (by rw [hu]; exact h) c).trans hu)
  exact hfold _ s rfl

/-- A ROAMING camera keeps a rectangle alone and frees its other cells (R110). -/
theorem park_course (r : Rect) (he : enabledState (s.cam c).state = true) (hr : isRoaming (s.cam c) = true) :
    Course s0 P s P ((s.freeOutside c (some r)).modCam c fun k => { k with held := some r }) := by
  refine .single (.cam P s _ c false { s.cam c with held := some r } (.parks _ r he hr) ?_ ?_ ?_ ?_)
  · simp only [State.modCam, State.setCam, State.freeOutside_cams, State.freeOutside_cam]
  · exact freeOutside_cellsOf (some r)
  · exact freeOutside_zones c (some r) s
  · exact (freeOutside_orderly c (some r) s).trans (modCam_orderly ..)

theorem giveBack_course {x y : Int} (he : enabledState (s.cam c).state = true) : Course s0 P s P (giveBack c x y s) := by
  unfold giveBack
  dsimp only
  split
  · next hr => exact (park_course _ he hr).trans releaseExam_course
  · exact .refl

/-- A camera that does not wait for floor gives back floor, and changes in its held rectangle at most. -/
theorem giveBack_cam_self {x y : Int} (h : inWaitingSet (s.cam c) = false) :
    (giveBack c x y s).cam c = if isRoaming (s.cam c) then
      { s.cam c with held := some (parkedRect s.floor (s.cam c).cfg.margin x y) } else s.cam c := by
  unfold giveBack
  dsimp only
  split
  · rw [releaseExam_cam]
    · rw [cam_modCam_self, State.freeOutside_cam]
    · rw [cam_modCam_self, State.freeOutside_cam]; exact h
  · rfl

theorem giveBack_state {x y : Int} (h : (s.cam c).state ≠ .waiting) : ((giveBack c x y s).cam c).state = (s.cam c).state := by
  rw [giveBack_cam_self (inWaitingSet_of_state h)]
  split <;> rfl

/-- The end of a move with the floor given back: the camera is IDLE and may have a cue to take. -/
theorem endMove_giveBack {code : Code} {detail : BitVec 16} {x y : Int} (hm : movingState (s.cam c).state = true) :
    Course s0 P s (insert c P) (giveBack c x y ((endActive c code detail s).modCam c marksGone)) ∧
      ((giveBack c x y ((endActive c code detail s).modCam c marksGone)).cam c).state = .idle := by
  have hst : (((endActive c code detail s).modCam c marksGone).cam c).state = .idle := by
    rw [cam_modCam_self]; exact endActive_state ..
  exact ⟨(endMove_course hm).trans (giveBack_course (by rw [hst]; rfl)), by rw [giveBack_state (by rw [hst]; nofun), hst]⟩

theorem completeMove_course (hm : movingState (s.cam c).state = true) : Course s0 P s P (completeMove c s) := by
  obtain ⟨hc, hi⟩ := endMove_giveBack (s0 := s0) (P := P) hm
  exact hc.trans (takeHead_course hi)

theorem abandonCue_course (hm : movingState (s.cam c).state = true) :
    Course s0 P s (insert c P) (abandonCue c s) ∧ ((abandonCue c s).cam c).state = .idle := endMove_giveBack hm

theorem abandonMove_course (hm : movingState (s.cam c).state = true) : Course s0 P s P (abandonMove c s) := by
  obtain ⟨hc, hi⟩ := abandonCue_course (s0 := s0) (P := P) hm
  exact hc.trans (takeHead_course hi)

end Sys2Proof.Machine

/-! The Shot Engine, the adoption and the Cue Unit as courses of elementary changes. -/

namespace Sys2Proof.Machine

variable {s0 s t u : State} {P Q : Set Cam} {c : Cam}

/-! The Shot Engine -/

theorem modShot_course (f : ShotEngine → ShotEngine) : Course s0 P s P (s.modShot f) := course_block rfl rfl rfl rfl rfl rfl rfl

theorem modBus_course (f : HostBus → HostBus) : Course s0 P s P (s.modBus f) := course_block rfl rfl rfl rfl rfl rfl rfl

/-- An access that is orphaned changes the port alone. -/
theorem orphanPort_eq (p : Owner → Bool) (s : State) : ∃ q, s.orphanPort p = { s with port := q } := by
  unfold State.orphanPort
  split
  · split
    · exact ⟨_, rfl⟩
    · exact ⟨s.port, rfl⟩
  · exact ⟨s.port, rfl⟩

/-- Cancelling requests changes the Shot Engine and the port alone. -/
theorem cancelWork_eq (p : ShotReq → Bool) (s : State) : ∃ e q, cancelWork p s = { s with shot := e, port := q } := by
  unfold cancelWork
  dsimp only
  split
  · split
    · obtain ⟨q, hq⟩ := orphanPort_eq shotOwner
        ((s.modShot fun e => { e with fifo := e.fifo.filter (!p ·), arrivals := e.arrivals.filter (!p ·) }).modShot fun e =>
          { e with op := none })
      exact ⟨_, q, hq⟩
    · exact ⟨_, s.port, rfl⟩
  · exact ⟨_, s.port, rfl⟩

theorem cancelWork_course (p : ShotReq → Bool) : Course s0 P s P (cancelWork p s) := by
  obtain ⟨e, q, h⟩ := cancelWork_eq p s
  rw [h]
  exact course_block rfl rfl rfl rfl rfl rfl rfl

theorem cancelWork_cam (p : ShotReq → Bool) (s : State) (d : Cam) : (cancelWork p s).cam d = s.cam d := by
  obtain ⟨e, q, h⟩ := cancelWork_eq p s
  rw [h]; rfl

theorem orphanPort_course (p : Owner → Bool) : Course s0 P s P (s.orphanPort p) := by
  obtain ⟨q, h⟩ := orphanPort_eq p s
  rw [h]
  exact course_block rfl rfl rfl rfl rfl rfl rfl

theorem startRequests_course : Course s0 P s P (startRequests s) := by
  obtain ⟨e, h⟩ := startRequests_eq s
  rw [h]
  exact course_block rfl rfl rfl rfl rfl rfl rfl

/-- A cue without a move under way ends, and the camera takes its next head (R48). -/
theorem endActive_takeHead_course {code : Code} {detail : BitVec 16} (ha : activeState (s.cam c).state = true)
    (hm : movingState (s.cam c).state = false) : Course s0 P s P (takeHead c (endActive c code detail s)) :=
  (endActive_course ha hm).trans (takeHead_course (endActive_state ..))

theorem failFetch_course (code : Code) : Course s0 P s P (failFetch c code s) := by
  refine (modShot_course fun e => { e with op := none }).trans ?_
  unfold failFetch
  dsimp only
  split
  · next h => exact endActive_takeHead_course (by rw [h]; rfl) (by rw [h]; rfl)
  · exact .refl

theorem completeFetch_course (ws : List (BitVec 16)) : Course s0 P s P (completeFetch c ws s) := by
  refine (modShot_course fun e => { e with op := none }).trans ?_
  unfold completeFetch
  dsimp only
  split
  · next h _ => exact nextHead_course (outcome_planActive _ h)
  · exact .refl

theorem fetchRead_course (a : Addr) (w : MWord) : Course s0 P s P (fetchRead a w s) := by
  unfold fetchRead
  split
  · exact .refl
  · split
    · exact (course_error ..).trans (failFetch_course _)
    · split
      · exact failFetch_course _
      · dsimp only
        split
        · exact modShot_course _
        · exact completeFetch_course _

theorem endCapture_course (op : ShotOp) (code : Code) : Course s0 P s P (endCapture op code s) :=
  (modShot_course _).trans (recordResult_course ..)

theorem captureWrite_course : Course s0 P s P (captureWrite s) := by
  unfold captureWrite
  split
  · exact .refl
  · split
    · exact modShot_course _
    · exact endCapture_course ..

theorem timeoutShot_course : Course s0 P s P (timeoutShot s) := by
  unfold timeoutShot
  split
  · exact .refl
  · split
    · exact failFetch_course _
    · exact endCapture_course ..

theorem shotOverlap_course (off : Nat) : Course s0 P s P (shotOverlap off s) := by
  unfold shotOverlap
  split
  · exact .refl
  · split
    · split
      · exact modShot_course _
      · refine (orphanPort_course shotOwner).trans ?_
        dsimp only
        split
        · exact modShot_course _
        · exact failFetch_course _
    · exact .refl

/-! The adoption -/

theorem leaveAdoption_course : Course s0 P s P (s.leaveAdoption c) := course_block rfl rfl rfl rfl rfl rfl rfl

/-- An adoption is given up (R45, R46). -/
theorem leave_course (h : (s.cam c).state = .adopting ∨ (s.cam c).adoption.isSome = true) :
    Course s0 P s P (s.modCam c fun k => { k with state := .offline, adoption := none, queue := [], cfg := emptyConfig }) :=
  course_modCam (.leaves _ h)

theorem failAdoption_course {ad : Adoption} {code : Code} {detail : BitVec 16} (h : (s.cam c).adoption.isSome = true) :
    Course s0 P s P (failAdoption c ad code detail s) :=
  ((leave_course (.inr h)).trans leaveAdoption_course).trans (recordResult_course ..)

/-- The camera and its floor after an adoption succeeds (R47, R112). -/
theorem adopt_course {t : List (Option (BitVec 16))} {l o : Bool} (h0 : (s0.cam c).adoption.isSome = true)
    (h : (s.cam c).adoption.isSome = true) (hlim : outOfLimits t = 0) (r : Rect) :
    Course s0 P s (insert c P)
      ((if (pendingConfig t).kind == some .roaming then s.holdRect c r else s).modCam c
        (adoptedCamera t l o (if (pendingConfig t).kind == some .roaming then some r else none))) := by
  by_cases hk : ((pendingConfig t).kind == some .roaming) = true
  · rw [if_pos hk, if_pos hk]
    have hroam : (pendingConfig t).kind = some .roaming := by simpa using hk
    refine .single (.cam P s _ c true _ (.adopts (s.cam c) t l o (some r) h0 h hlim fun _ => hroam) ?_ ?_ ?_ ?_)
    · simp only [State.modCam, State.setCam, State.holdRect_cams, State.holdRect_cam]
    · exact holdRect_cellsOf r ⟨rfl, .inl hk⟩
    · exact holdRect_zones c r s
    · exact (holdRect_orderly c r s).trans (modCam_orderly ..)
  · rw [if_neg hk, if_neg hk]
    exact course_modCam_open (.adopts _ t l o none h0 h hlim nofun)

/-- The checks pass only with the adopted positions within their limits (R46). -/
theorem outOfLimits_of_done {ad : Adoption} {timedOut : Bool} {f : FloorMap} (h : (adoptionCheck c ad timedOut f).1 = .done) :
    outOfLimits ad.taken = 0 := by
  unfold adoptionCheck at h
  dsimp only at h
  repeat' split at h
  all_goals first | contradiction | simp_all

theorem succeedAdoption_course {ad : Adoption} (h0 : (s0.cam c).adoption.isSome = true) (h : (s.cam c).adoption.isSome = true)
    (hlim : outOfLimits ad.taken = 0) : Course s0 P s P (succeedAdoption c ad s) := by
  unfold succeedAdoption
  dsimp only
  refine (((adopt_course h0 h hlim _).trans leaveAdoption_course).trans (recordResult_course ..)).trans (takeHead_course ?_)
  rw [recordResult_cam, State.leaveAdoption_cam, cam_modCam_self]
  rfl

theorem endAdoption_course {ad : Adoption} {timedOut : Bool} (h0 : (s0.cam c).adoption.isSome = true)
    (h : (s.cam c).adoption.isSome = true) : Course s0 P s P (endAdoption c ad timedOut s) := by
  unfold endAdoption
  have hlim := @outOfLimits_of_done c ad timedOut s.floor
  rcases hc : adoptionCheck c ad timedOut s.floor with ⟨code, detail⟩
  rw [hc] at hlim
  dsimp only
  split
  · next hdone => exact succeedAdoption_course h0 h (hlim hdone)
  · exact failAdoption_course h

/-- The word of an own read is tested. -/
theorem readFault_course (w : MWord) (a : Addr) : Course s0 P s P (if wordOk w = true then s else s.error .ownParity true a w) := by
  split
  · exact .refl
  · exact course_error ..

theorem readFault_cam (w : MWord) (a : Addr) (s : State) (d : Cam) :
    (if wordOk w = true then s else s.error .ownParity true a w).cam d = s.cam d := by split <;> rfl

/-- An adoption that runs goes on. -/
theorem read_course (ad : Adoption) (h : (s.cam c).adoption.isSome = true) :
    Course s0 P s P (s.modCam c fun k => { k with adoption := some ad }) :=
  course_modCam (.reads _ (some ad) h.symm)

theorem adoptionRead_course (hs : s.cam c = s0.cam c) (a : Addr) (w : MWord) : Course s0 P s P (adoptionRead c a w s) := by
  unfold adoptionRead
  split
  · exact .refl
  · next ad had =>
    have h0 : (s0.cam c).adoption.isSome = true := by rw [← hs, had]; rfl
    dsimp only
    have hread := fun ad' => (readFault_course w a (s0 := s0) (P := P)).trans
      (read_course ad' (by rw [readFault_cam w a s, had]; rfl))
    split
    · exact hread _
    · exact (hread _).trans (endAdoption_course h0 (by rw [cam_modCam_self]; rfl))

theorem timeoutAdoption_course (hs : s.cam c = s0.cam c) : Course s0 P s P (timeoutAdoption c s) := by
  unfold timeoutAdoption
  split
  · exact .refl
  · next ad had => exact endAdoption_course (by rw [← hs, had]; rfl) (by rw [had]; rfl)

/-! The Cue Unit -/

theorem rateTarget_le (k : Camera) : rateTarget k ≤ k.override := by
  unfold rateTarget
  split
  · exact Nat.zero_le _
  · split
    · exact Nat.min_le_left _ _
    · exact le_rfl

/-- The rate target formed again is one of the two that a camera can hold. -/
theorem reformRate_eq (k : Camera) : reformRate k = { k with rt := (reformRate k).rt } ∧
    ((reformRate k).rt = k.rt ∨ (reformRate k).rt = rateTarget k) := by
  unfold reformRate
  split
  · exact ⟨rfl, .inr rfl⟩
  · exact ⟨rfl, .inl rfl⟩

theorem reformRate_rt_le {k : Camera} (ho : k.override ≤ 256) (hr : k.rt ≤ 256) : (reformRate k).rt ≤ 256 := by
  rcases (reformRate_eq k).2 with h | h <;> rw [h]
  · exact hr
  · exact (rateTarget_le k).trans ho

/-- A move under way is driven, and its rate target formed again. -/
theorem drive_course {st : CamState} {h a l : Bool} {r : Nat} {f : Camera → Camera} (hm : movingState (s.cam c).state = true)
    (hd : Driven (s.cam c) st h a) (hr : (s.cam c).rate ≤ 256 → r ≤ 256)
    (hf : f (s.cam c) = reformRate { s.cam c with state := st, halt := h, abandon := a, stopLatch := l, rate := r }) :
    Course s0 P s P (s.modCam c f) := by
  refine course_modCam ?_
  rw [hf, (reformRate_eq _).1]
  exact .drives _ st h a l r _ hm hd hr fun ho hrt => reformRate_rt_le ho hrt

theorem markAbandon_course (hm : movingState (s.cam c).state = true) : Course s0 P s P (s.modCam c markAbandon) :=
  drive_course hm (.slows true) id rfl

theorem cutActive_course : Course s0 P s P (cutActive c s) := by
  unfold cutActive
  split
  · next h =>
    have hc := cancelWork_cam (fetchOf c) s c
    exact (cancelWork_course _).trans (endActive_takeHead_course (by rw [hc, h]; rfl) (by rw [hc, h]; rfl))
  · next h => exact endActive_takeHead_course (by rw [h]; rfl) (by rw [h]; rfl)
  · next h => exact markAbandon_course (by rw [h]; rfl)
  · next h => exact markAbandon_course (by rw [h]; rfl)
  · next h => exact abandonMove_course (by rw [h]; rfl)
  · exact .refl

/-- A cue joins the queue of a camera, which takes it at once when it is IDLE. -/
theorem enqueue_course {f : Camera → Camera} {l : List Cue} (hl : l.length ≤ 4) (hf : f (s.cam c) = { s.cam c with queue := l }) :
    Course s0 P s P (takeHead c (s.modCam c f)) := by
  have hcam : (s.modCam c f).cam c = { s.cam c with queue := l } := by rw [cam_modCam_self, hf]
  have hq : Course s0 P s (insert c P) (s.modCam c f) ∧ ((s.cam c).state ≠ .idle → Course s0 P s P (s.modCam c f)) := by
    have hch := CameraChange.queues (k0 := s0.cam c) (s.cam c) l hl
    rw [← hf] at hch
    by_cases h : (s.cam c).active = none ∧ (s.cam c).state = .idle ∧ l ≠ []
    · rw [decide_eq_true h] at hch
      exact ⟨course_modCam_open hch, fun hi => absurd h.2.1 hi⟩
    · rw [decide_eq_false h] at hch
      exact ⟨(course_modCam hch).trans (course_open c), fun _ => course_modCam hch⟩
  by_cases hi : (s.cam c).state = .idle
  · exact hq.1.trans (takeHead_course (by rw [hcam]; exact hi))
  · rw [takeHead_of_busy (by rw [hcam]; exact hi)]
    exact hq.2 hi

theorem active_of_cutsIn {k : Camera} {q : Cue} (h : cutsIn k q = true) : k.active ≠ none := by
  rintro ha
  simp [cutsIn, ha] at h

theorem joinQueue_course (q : Cue) (hq : (s.cam c).queue.length < 4) : Course s0 P s P (joinQueue c q s) := by
  unfold joinQueue
  split
  · next hcut =>
    have hch := CameraChange.queues (k0 := s0.cam c) (s.cam c) (q :: (s.cam c).queue) (by simpa using hq)
    rw [decide_eq_false (fun h => active_of_cutsIn hcut h.1)] at hch
    exact (course_modCam hch).trans cutActive_course
  · exact enqueue_course (l := (s.cam c).queue ++ [q]) (by simp; omega) rfl

theorem cueGoto_course (tag : BitVec 8) : Course s0 P s P (cueGoto c tag s) := by
  unfold cueGoto refuseState
  dsimp only
  split
  · exact recordResult_course ..
  · split
    · exact recordResult_course ..
    · split
      · exact recordResult_course ..
      · exact joinQueue_course _ (by omega)

theorem cueReturn_course (tag : BitVec 8) : Course s0 P s P (cueReturn c tag s) := by
  unfold cueReturn refuseState
  dsimp only
  split
  · exact recordResult_course ..
  · split
    · exact recordResult_course ..
    · exact joinQueue_course _ (by omega)

theorem cueHalt_course (tag : BitVec 8) : Course s0 P s P (cueHalt c tag s) := by
  unfold cueHalt refuseState cueDone
  split
  · next h => exact (drive_course (by rw [h]; rfl) (.slows _) id rfl).trans (recordResult_course ..)
  all_goals exact recordResult_course ..

/-- A camera with no move under way whose stop latch and halt mark are cleared (R77). -/
theorem unlatch_course (h1 : (s.cam c).state ≠ .halting) (h2 : (s.cam c).state ≠ .halted) :
    Course s0 P s P (s.modCam c fun k => { k with stopLatch := false, halt := false }) := by
  have h := (course_modCam (s0 := s0) (P := P) (f := fun k => { k with halt := false }) (.unmarks (s.cam c) h1 h2)).trans
    (course_modCam (c := c) (f := fun k => { k with stopLatch := false }) (.tunes _ false _ _ _ id fun _ h => h))
  rwa [State.modCam_modCam] at h

theorem acceptResume_course (tag : BitVec 8) (h : (s.cam c).state = .halting → (s.cam c).abandon = false) :
    Course s0 P s P (acceptResume c tag s) := by
  have hdrive : movingState (s.cam c).state = true → (s.cam c).state = .halted ∨ (s.cam c).abandon = false →
      Course s0 P s P ((s.modCam c fun k => { k with stopLatch := false, halt := false }).modCam c fun k =>
        reformRate { k with state := .moving }) := by
    intro hm hd
    rw [State.modCam_modCam]
    exact drive_course hm (.resumes hd) id rfl
  unfold acceptResume cueDone
  dsimp only
  split
  · next hw =>
    have hun := unlatch_course (s0 := s0) (s := s) (c := c) (P := P) (by simp [hw]) (by simp [hw])
    cases hstop : (s.cam c).waitStop with
    | true =>
      rw [if_pos rfl]
      have hopen := hun.trans (course_modCam_open (f := fun k => { k with waitStop := false })
        (.reasons _ true false _ (by rw [cam_modCam_self]; exact hw) nofun))
      have hout : Outcome s0 (insert c P) c
          ((s.modCam c fun k => { k with stopLatch := false, halt := false }).modCam c fun k => { k with waitStop := false }) _ :=
        outcome_reasonsChanged (by simpa using hw)
      have hcourse := hopen.trans hout.course
      rw [Set.insert_idem] at hcourse
      unfold nextHead
      dsimp only
      split
      · next he => exact (hcourse.trans (recordResult_course ..)).trans (takeHead_course (by rw [recordResult_cam]; exact hout.ended he))
      · next he => exact (hcourse.trans (course_close (hout.rest (by simpa using he)))).trans (recordResult_course ..)
    | false =>
      rw [if_neg Bool.false_ne_true]
      refine (hun.trans (course_modCam (.reasons _ false false _ ?_ fun _ => ⟨?_, id⟩))).trans (recordResult_course ..)
      · rw [cam_modCam_self]; exact hw
      · rw [cam_modCam_self]; exact fun hs => absurd (hstop.symm.trans hs) Bool.false_ne_true
  · next hh => exact (hdrive (by rw [hh]; rfl) (.inr (h hh))).trans (recordResult_course ..)
  · next hh => exact (hdrive (by rw [hh]; rfl) (.inl hh)).trans (recordResult_course ..)
  · next _ h1 h2 => exact (unlatch_course h1 h2).trans (recordResult_course ..)

theorem cueResume_course (tag : BitVec 8) : Course s0 P s P (cueResume c tag s) := by
  unfold cueResume refuseState
  dsimp only
  split
  · exact recordResult_course ..
  · next h =>
    split
    · exact recordResult_course ..
    · refine acceptResume_course tag fun hh => ?_
      cases ha : (s.cam c).abandon with
      | false => rfl
      | true => exact absurd (.inr (.inr ⟨hh, ha⟩)) h

theorem cueAbandon_course (tag : BitVec 8) : Course s0 P s P (cueAbandon c tag s) := by
  have hend : ∀ u : State, activeState (u.cam c).state = true → movingState (u.cam c).state = false →
      Course s0 P u P (takeHead c (cueDone c tag 5 0 (endActive c .abandoned 0 u))) := fun u ha hm =>
    ((endActive_course ha hm).trans (recordResult_course ..)).trans (takeHead_course ((recordResult_state ..).trans (endActive_state ..)))
  unfold cueAbandon
  split
  · next h =>
    have hc := cancelWork_cam (fetchOf c) s c
    exact (cancelWork_course _).trans (hend _ (by rw [hc, h]; rfl) (by rw [hc, h]; rfl))
  · next h => exact hend _ (by rw [h]; rfl) (by rw [h]; rfl)
  · next h => exact (markAbandon_course (by rw [h]; rfl)).trans (recordResult_course ..)
  · next h => exact (markAbandon_course (by rw [h]; rfl)).trans (recordResult_course ..)
  · next h =>
    obtain ⟨hc, hi⟩ := abandonCue_course (s0 := s0) (P := P) (s := s) (c := c) (by rw [h]; rfl)
    exact (hc.trans (recordResult_course ..)).trans (takeHead_course ((recordResult_state ..).trans hi))
  · exact recordResult_course ..

theorem clampNat_mem {lo hi v : Nat} (h : lo ≤ hi) : lo ≤ clampNat lo hi v ∧ clampNat lo hi v ≤ hi := by
  unfold clampNat; split
  · omega
  · split <;> omega

theorem cueOverride_course (tag : BitVec 8) : Course s0 P s P (cueOverride c tag s) := by
  unfold cueOverride refuseState
  dsimp only
  split
  · exact recordResult_course ..
  · have hv : ∀ n, 1 ≤ clampNat 1 256 n ∧ clampNat 1 256 n ≤ 256 := fun n => clampNat_mem (by decide)
    refine .trans (course_modCam ?_) (recordResult_course ..)
    rw [(reformRate_eq _).1]
    exact .tunes _ _ _ _ _ (fun _ => hv _) fun _ hrt => reformRate_rt_le (hv _).2 hrt

theorem cueFlush_course (tag : BitVec 8) : Course s0 P s P (cueFlush c tag s) := by
  unfold cueFlush refuseState cueDone
  dsimp only
  split
  · exact recordResult_course ..
  · have hch := CameraChange.queues (k0 := s0.cam c) (s.cam c) [] (Nat.zero_le _)
    rw [decide_eq_false fun h => h.2.2 rfl] at hch
    exact (course_modCam hch).trans (recordResult_course ..)

theorem cueCapture_course (tag : BitVec 8) : Course s0 P s P (cueCapture c tag s) := by
  unfold cueCapture refuseState
  dsimp only
  repeat' split
  · exact recordResult_course ..
  · exact recordResult_course ..
  · exact recordResult_course ..
  · exact modShot_course _

theorem askFill_course : Course s0 P s P (askFill c s) := by
  unfold askFill
  split
  · exact .refl
  · exact course_block rfl rfl rfl rfl rfl rfl rfl

theorem dropFills_course : Course s0 P s P (dropFills c s) := course_block rfl rfl rfl rfl rfl rfl rfl

theorem dropFills_cam (c d : Cam) (s : State) : (dropFills c s).cam d = s.cam d := rfl

theorem cueDirect_course (tag : BitVec 8) : Course s0 P s P (cueDirect c tag s) := by
  unfold cueDirect refuseState cueDone
  split
  · next h => exact ((course_modCam (.directs _ h)).trans askFill_course).trans (recordResult_course ..)
  · exact recordResult_course ..

theorem cueRelease_course (tag : BitVec 8) : Course s0 P s P (cueRelease c tag s) := by
  unfold cueRelease refuseState cueDone
  split
  · next h =>
    refine (((course_modCam_open (.releases _ h)).trans dropFills_course).trans (recordResult_course ..)).trans (takeHead_course ?_)
    rw [recordResult_state, dropFills_cam, cam_modCam_self]
  · exact recordResult_course ..

/-- An adoption is begun (R43). -/
theorem enable_course (ad : Adoption) (h : (s.cam c).state = .offline) :
    Course s0 P s P (s.modCam c fun k => { k with state := .adopting, stale := false, adoption := some ad }) :=
  course_modCam (.enables _ ad h)

theorem cueEnable_course (tag : BitVec 8) : Course s0 P s P (cueEnable c tag s) := by
  unfold cueEnable refuseState
  dsimp only
  split
  · next h => exact (enable_course _ h).trans (course_block rfl rfl rfl rfl rfl rfl rfl)
  · exact recordResult_course ..

theorem disableAdopting_course (tag : BitVec 8) (h : (s.cam c).state = .adopting) : Course s0 P s P (disableAdopting c tag s) := by
  have hc : ((s.leaveAdoption c).orphanPort (adoptionOwner c)).cam c = s.cam c := by
    obtain ⟨q, hq⟩ := orphanPort_eq (adoptionOwner c) (s.leaveAdoption c)
    rw [hq]; rfl
  refine (leaveAdoption_course.trans (orphanPort_course (adoptionOwner c))).trans
    ((leave_course (.inl (hc.symm ▸ h))).trans ?_)
  unfold disableAdopting cueDone
  dsimp only
  split
  · exact ((recordResult_course ..).trans (recordResult_course ..)).trans releaseExam_course
  · exact (recordResult_course ..).trans releaseExam_course

theorem abandonCapture_course : Course s0 P s P (abandonCapture c s) := by
  unfold abandonCapture
  split
  · exact (cancelWork_course _).trans (recordResult_course ..)
  · exact .refl

/-- What a DISABLE withdraws from the Shot Engine and the Setpoint Writer leaves the camera's state and floor (R64, R88). -/
theorem abandonCapture_state : ((abandonCapture c s).cam c).state = (s.cam c).state := by
  unfold abandonCapture
  split
  · rw [recordResult_cam, cancelWork_cam]; rfl
  · rfl

/-- The camera is taken out of service, and its cells become FREE (R64, R111). -/
theorem disable_course (h : enabledState (s.cam c).state = true) :
    Course s0 P s P ((s.freeOutside c none).modCam c disabledCamera) := by
  refine .single (.disable P s _ c h ?_ (fun x y => ?_) ?_ ?_)
  · simp only [State.modCam, State.setCam, State.freeOutside_cams, State.freeOutside_cam]
  · exact (freeOutside_cell s c none x y).trans (by simp)
  · exact freeOutside_zones c none s
  · exact (freeOutside_orderly c none s).trans (modCam_orderly ..)

/-- The state once a DISABLE has withdrawn camera c's requests from the Shot Engine and the Setpoint Writer (R64, R88). -/
def withdrawn (c : Cam) (s : State) : State :=
  let s := dropFills c ((abandonCapture c (cancelWork (fetchOf c) s)).orphanPort (writeOutOwner c))
  { s with setp := { s.setp with writeOuts := s.setp.writeOuts.filter (·.cam != c) } }

theorem withdrawn_eq (c : Cam) (s : State) :
    ∃ q p, withdrawn c s = { abandonCapture c (cancelWork (fetchOf c) s) with port := q, setp := p } := by
  obtain ⟨q, hq⟩ := orphanPort_eq (writeOutOwner c) (abandonCapture c (cancelWork (fetchOf c) s))
  exact ⟨q, _, by rw [withdrawn, hq]; rfl⟩

theorem disableEnabled_eq (c : Cam) (tag : BitVec 8) (s : State) :
    disableEnabled c tag s =
      releaseExam (cueDone c tag 12 (BitVec.ofNat 16 ((s.cam c).queue.length + (if (s.cam c).active.isSome then 1 else 0)))
        (((withdrawn c s).freeOutside c none).modCam c disabledCamera)) := rfl

theorem withdrawn_course : Course s0 P s P (withdrawn c s) := by
  obtain ⟨q, p, h⟩ := withdrawn_eq c s
  rw [h]
  exact ((cancelWork_course _).trans abandonCapture_course).trans (course_block rfl rfl rfl rfl rfl rfl rfl)

theorem withdrawn_state : ((withdrawn c s).cam c).state = (s.cam c).state := by
  obtain ⟨q, p, h⟩ := withdrawn_eq c s
  rw [h]
  exact abandonCapture_state.trans (congrArg Camera.state (cancelWork_cam ..))

theorem disableEnabled_course (tag : BitVec 8) (h : enabledState (s.cam c).state = true) :
    Course s0 P s P (disableEnabled c tag s) := by
  rw [disableEnabled_eq]
  exact (withdrawn_course.trans (disable_course (by rw [withdrawn_state]; exact h))).trans
    ((recordResult_course ..).trans releaseExam_course)

theorem cueDisable_course (tag : BitVec 8) : Course s0 P s P (cueDisable c tag s) := by
  unfold cueDisable refuseState
  split
  · exact recordResult_course ..
  · next h => exact disableAdopting_course tag h
  · next h1 h2 =>
    refine disableEnabled_course tag ?_
    cases hs : (s.cam c).state <;> simp_all [enabledState]

theorem course_ite {p : Prop} [Decidable p] {a b : State} (ha : Course s0 P s Q a) (hb : Course s0 P s Q b) :
    Course s0 P s Q (if p then a else b) := by
  split
  · exact ha
  · exact hb

theorem judgeCue_course (tag : BitVec 8) (kind : BitVec 4) : Course s0 P s P (judgeCue c tag kind s) := by
  exact course_ite (cueGoto_course tag) <| course_ite (cueReturn_course tag) <| course_ite (cueHalt_course tag) <|
    course_ite (cueResume_course tag) <| course_ite (cueAbandon_course tag) <| course_ite (cueOverride_course tag) <|
    course_ite (cueFlush_course tag) <| course_ite (cueCapture_course tag) <| course_ite (cueDirect_course tag) <|
    course_ite (cueRelease_course tag) <| course_ite (cueEnable_course tag) <| course_ite (cueDisable_course tag)
    (recordResult_course ..)

theorem takePost_course (w : MWord) : Course s0 P s P (takePost c w s) := by
  unfold takePost
  dsimp only
  split
  · exact recordResult_course ..
  · exact judgeCue_course ..

end Sys2Proof.Machine

/-! The zones, the host path, the lines, the timer and the load as courses of elementary changes. -/

namespace Sys2Proof.Machine

variable {s0 s t u : State} {P Q : Set Cam} {c : Cam}

/-! Zones -/

theorem course_zone (hc : t.cams = s.cams) (hz : ZoneChange s.floor t.floor) (h : Orderly s t) : Course s0 P s P t :=
  .single (.zone P s t hc hz h)

theorem zoneStatus_zones (z : Fin 16) (st : ZoneStatus) (r : Option Rect) (s : State) :
    (s.zoneStatus z st r).floor.zones = s.floor.zones.set z { s.floor.zones[z] with status := st, applied := r } := rfl

theorem zoneStatus_cells (z : Fin 16) (st : ZoneStatus) (r : Option Rect) (s : State) :
    (s.zoneStatus z st r).floor.cells = s.floor.cells := rfl

/-- A change of an entry's bounds. -/
theorem course_modZone (z : Fin 16) {f : Zone → Zone} (hs : ∀ e, (f e).status = e.status) (ha : ∀ e, (f e).applied = e.applied) :
    Course s0 P s P (s.modZone z f) := by
  refine course_zone rfl (.bounds rfl fun y => ?_) (modZone_orderly z hs s)
  simp only [State.modZone, Fin.getElem_fin, Vector.getElem_set]
  split
  · next h => simp only [hs, ha, h]; exact ⟨trivial, trivial⟩
  · exact ⟨rfl, rfl⟩

theorem takeBound_course (z : Fin 16) (k : Fin 4) (w : MWord) : Course s0 P s P (takeBound z k w s) := by
  unfold takeBound
  exact course_ite (course_modZone z (fun _ => rfl) fun _ => rfl) .refl

/-- A change of the cells, with an entry's new status (R114, R116). -/
theorem course_paintZone {f : Fin 32 → Fin 32 → Cell → Cell} {z : Fin 16} {st : ZoneStatus} {r : Option Rect}
    (h : ZoneChange s.floor ((s.paint f).zoneStatus z st r).floor) : Course s0 P s P ((s.paint f).zoneStatus z st r) :=
  course_zone (by rw [State.zoneStatus_cams, State.paint_cams]) h ((paint_orderly f s).trans (zoneStatus_orderly z st r _))

/-- A new status of an entry that is not ACTIVE and does not become so. -/
theorem restate_course {z : Fin 16} {st : ZoneStatus} (hz : s.floor.zones[z].status ≠ .active) (hst : st ≠ .active) :
    Course s0 P s P (s.zoneStatus z st none) :=
  course_zone rfl (.restates z st hz hst rfl rfl) (zoneStatus_orderly ..)

theorem applyZone_course (z : Fin 16) : Course s0 P s P (applyZone z s) := by
  unfold applyZone
  dsimp only
  split
  · exact .refl
  · next hst =>
    split
    · exact (restate_course (z := z) (st := .refusedHeld) hst nofun).trans (course_flag flagZoneRefused)
    · next hfree =>
      refine course_paintZone (.applies z (zoneRect s.floor.zones[z]) hst (fun x y hr => ?_) (fun x y => ?_) ?_)
      · by_contra hh
        exact hfree ((anyCell_iff ..).mpr ⟨x, y, hr, by simpa using hh⟩)
      · rw [zoneStatus_cells, paint_cell]
      · rw [zoneStatus_zones, State.paint_zones]

theorem removeZone_course (z : Fin 16) : Course s0 P s P (removeZone z s) := by
  unfold removeZone
  split
  · exact .refl
  · next hst => exact restate_course (by rw [hst]; nofun) nofun
  · next hst =>
    refine .trans (course_paintZone (.removes z hst (fun x y => ?_) ?_)) releaseExam_course
    · rw [zoneStatus_cells, paint_cell]
    · rw [zoneStatus_zones, State.paint_zones]

theorem takeEnable_course (z : Fin 16) (w : MWord) : Course s0 P s P (takeEnable z w s) :=
  course_ite .refl (course_ite (applyZone_course z) (removeZone_course z))

/-! The host path -/

theorem forward_course (a : Addr) (w x : Option MWord) (e : OnEnd) : Course s0 P s P (forward a w x e s) := modBus_course _

theorem endHost_course (a : Addr) (iw berr : Bool) (w : MWord) : Course s0 P s P (s.endHost a iw berr w) := modBus_course _

theorem refuseAccess_course (x : HostAccess) : Course s0 P s P (refuseAccess x s) :=
  (course_flag flagFenceHit).trans (endHost_course ..)

theorem setFences_course {fs : Vector Fence 8} (h : (∀ n : Fin 8, s.fences[n].hits ≤ 255) → ∀ n : Fin 8, fs[n].hits ≤ 255) :
    Course s0 P s P (s.setFences fs) := course_frame rfl rfl (setFences_orderly h)

theorem outsideAccess_course (x : HostAccess) : Course s0 P s P (outsideAccess x s) := by
  unfold outsideAccess
  dsimp only
  split
  · refine .trans (setFences_course fun h n => ?_) (refuseAccess_course x)
    simp only [Fin.getElem_fin, Vector.getElem_ofFn]
    split
    · exact Nat.min_le_left _ _
    · exact h n
  · exact forward_course ..

theorem modStat_course {f : StatusWriter → StatusWriter} (h : Orderly s (s.modStat f)) : Course s0 P s P (s.modStat f) :=
  course_frame rfl rfl h

theorem takeProbe_course (st : Staged) (hi : MWord) : Course s0 P s P (takeProbe st hi s) := by
  unfold takeProbe
  dsimp only
  refine .trans (.trans (modBus_course fun b => { b with staging := none }) (course_ite (modStat_course ?_) .refl)) (forward_course ..)
  refine modStat_orderly (fun i h => ?_) rfl rfl (.inr rfl)
  cases i <;> first | exact h | rfl

theorem blockedWrite_course (c : Cam) : Course s0 P s P (s.blockedWrite c) :=
  course_modCam (.notes _ _ _ _ _ _ _ fun _ => Nat.min_le_left _ _)

theorem holdLow_course (p : StagedPair) (a : Addr) (w : MWord) : Course s0 P s P (holdLow p a w s) :=
  (modBus_course fun b => { b with staging := some { pair := p, addr := a, word := w } }).trans (endHost_course ..)

theorem takeSlot_course {a : Axis} (ha : inMask (s.cam c).cfg.mask a = true) (st : Staged) (hi : MWord) :
    Course s0 P s P (takeSlot c a st hi s) := by
  unfold takeSlot
  dsimp only
  refine .trans (.trans (modBus_course fun b => { b with staging := none }) ?_) (forward_course ..)
  split
  · next h =>
    have hd : (s.cam c).state = .direct := by simp_all
    exact course_modCam (.steers (s.cam c) a _ hd ha)
  · exact .refl

theorem writeSlot_course (c : Cam) (a : Axis) (high : Bool) (x : HostAccess) (w : MWord) : Course s0 P s P (writeSlot c a high x w s) := by
  unfold writeSlot
  dsimp only
  split
  · exact (blockedWrite_course c).trans (refuseAccess_course x)
  · split
    · split
      · exact (modBus_course fun b => { b with staging := none }).trans (forward_course ..)
      · exact forward_course ..
    · next hst =>
      split
      · split
        · refine takeSlot_course ?_ _ _
          simp_all [slotStaged]
        · exact (blockedWrite_course c).trans (forward_course ..)
      · exact holdLow_course ..

theorem writeFlags_course (x : HostAccess) (w : MWord) : Course s0 P s P (writeFlags x w s) :=
  (course_ite (modStat_course (clearFlags_orderly ..)) .refl).trans (forward_course ..)

theorem writeMask_course (x : HostAccess) (w : MWord) : Course s0 P s P (writeMask x w s) :=
  (course_ite (modStat_course (modStat_orderly (fun i h => by cases i <;> exact h) rfl rfl (.inl rfl))) .refl).trans (forward_course ..)

theorem writeCaptureClear_course (x : HostAccess) (w : MWord) : Course s0 P s P (writeCaptureClear x w s) :=
  (course_ite (modStat_course (clearCapture_orderly s)) .refl).trans (forward_course ..)

theorem setMissed_course {n : Nat} (h : s.timer.missed ≤ 255 → n ≤ 255) : Course s0 P s P (s.setMissed n) :=
  course_frame rfl rfl (setMissed_orderly h)

theorem writeMissed_course (x : HostAccess) (w : MWord) : Course s0 P s P (writeMissed x w s) :=
  (course_ite (setMissed_course fun _ => Nat.zero_le _) .refl).trans (forward_course ..)

theorem writeHits_course (n : Fin 8) (x : HostAccess) (w : MWord) : Course s0 P s P (writeHits n x w s) := by
  refine .trans (course_ite (setFences_course fun h m => ?_) .refl) (forward_course ..)
  simp only [Fin.getElem_fin, Vector.getElem_set]
  split
  · exact Nat.zero_le _
  · exact h m

theorem setBound_hits (k : Fin 4) (d : BitVec 16) (f : Fence) : (setBound k d f).hits = f.hits := by
  unfold setBound
  split <;> rfl

theorem modFence_course (n : Fin 8) {f : Fence → Fence} (hf : ∀ e, (f e).hits = e.hits) : Course s0 P s P (s.modFence n f) :=
  course_frame rfl rfl (modFence_orderly n hf s)

theorem writeFenceBound_course (n : Fin 8) (k : Fin 4) (x : HostAccess) (w : MWord) : Course s0 P s P (writeFenceBound n k x w s) :=
  (course_ite (modFence_course n (setBound_hits k w.data)) .refl).trans (forward_course ..)

theorem takeMode_course (n : Fin 8) (w : MWord) : Course s0 P s P (takeMode n w s) := by
  unfold takeMode
  exact course_ite (modFence_course n fun _ => rfl) .refl

theorem writeLatch_course (c : Cam) (k : Fin 4) (x : HostAccess) (w : MWord) : Course s0 P s P (writeLatch c k x w s) :=
  (course_modCam (.notes (s.cam c) _ _ _ _ _ _ id)).trans (forward_course ..)

theorem writeConfig_course (c : Cam) (x : HostAccess) (w : MWord) : Course s0 P s P (writeConfig c x w s) :=
  (course_modCam (.notes (s.cam c) _ _ _ _ _ _ id)).trans (forward_course ..)

theorem writeProbeHigh_course (x : HostAccess) (w : MWord) : Course s0 P s P (writeProbeHigh x w s) := by
  unfold writeProbeHigh
  split
  · exact takeProbe_course ..
  · exact forward_course ..

theorem regionWrite_course (off : Nat) (x : HostAccess) (w : MWord) : Course s0 P s P (regionWrite off x w s) := by
  unfold regionWrite
  cases regionWord off with
  | pass => exact forward_course ..
  | refuse => exact refuseAccess_course x
  | flags => exact writeFlags_course x w
  | mask => exact writeMask_course x w
  | captureClear => exact writeCaptureClear_course x w
  | missed => exact writeMissed_course x w
  | hits n => exact writeHits_course n x w
  | fenceBound n k => exact writeFenceBound_course n k x w
  | fenceMode n => exact forward_course ..
  | probeLow => exact holdLow_course ..
  | probeHigh => exact writeProbeHigh_course x w
  | zoneBound z k => exact (takeBound_course z k w).trans (forward_course ..)
  | zoneEnable z => exact forward_course ..
  | command c => exact forward_course ..
  | latch c k => exact writeLatch_course c k x w
  | config c => exact writeConfig_course c x w
  | frame c => exact (blockedWrite_course c).trans (refuseAccess_course x)
  | slot c a high => exact writeSlot_course c a high x w
  | shot => exact (shotOverlap_course off).trans (forward_course ..)

theorem classify_course (x : HostAccess) : Course s0 P s P (classify x s) := by
  unfold classify
  split
  · exact outsideAccess_course x
  · split
    · exact forward_course ..
    · exact regionWrite_course ..

theorem testHostWord_course (x : HostAccess) : Course s0 P s P (testHostWord x s) := by
  unfold testHostWord
  split
  · exact course_ite .refl (course_error ..)
  · exact .refl

theorem decodeHost_course (x : HostAccess) : Course s0 P s P (decodeHost x s) := by
  refine (testHostWord_course x).trans ?_
  unfold decodeHost
  dsimp only
  split
  · exact classify_course x
  · refine course_ite (classify_course x) (.trans ?_ (modBus_course _))
    unfold countInterruption
    split
    · exact .refl
    · exact blockedWrite_course _

theorem serveHost_course (l : List HostAccess) : Course s0 P s P (serveHost l s) := by
  induction l generalizing s with
  | nil => exact .refl
  | cons x rest ih => exact course_ite (modBus_course _) ((decodeHost_course x).trans ih)

theorem pumpHost_course : Course s0 P s P (pumpHost s) := course_ite ((modBus_course _).trans (serveHost_course _)) .refl

theorem present_course (x : HostAccess) : Course s0 P s P (present x s) := (modBus_course _).trans pumpHost_course

theorem takeOnEnd_course (e : OnEnd) (w : MWord) : Course s0 P s P (takeOnEnd e w s) := by
  cases e with
  | nothing => exact .refl
  | post c => exact takePost_course w
  | zoneEnable z => exact takeEnable_course z w
  | fenceMode n => exact takeMode_course n w

theorem resumeHeld_course : Course s0 P s P (resumeHeld s) := by
  unfold resumeHeld
  split
  · exact (modBus_course _).trans (classify_course _)
  · exact .refl

theorem hostEnded_course (a : Access) (e : OnEnd) (phantom : Bool) (w : MWord) : Course s0 P s P (hostEnded a e phantom w s) :=
  course_ite resumeHeld_course (((course_ite (course_error ..) .refl).trans (modBus_course _)).trans (takeOnEnd_course e w))

theorem hostTimedOut_course (a : Access) (phantom : Bool) : Course s0 P s P (hostTimedOut a phantom s) :=
  course_ite resumeHeld_course (modBus_course _)

/-! The lines -/

/-- A camera whose reason has gone takes what follows, and its next head when its cue ends (R51, R52). -/
theorem reasonGone_course (h : Course s0 P s (insert c P) u) (hw : (u.cam c).state = .waiting) :
    Course s0 P s P (nextHead c (reasonsChanged c u)) := by
  have hout : Outcome s0 (insert c P) c u (reasonsChanged c u) := outcome_reasonsChanged hw
  have hcourse := h.trans hout.course
  rw [Set.insert_idem] at hcourse
  unfold nextHead
  split
  · next he => exact hcourse.trans (takeHead_course (hout.ended he))
  · next he => exact hcourse.trans (course_close (hout.rest (by simpa using he)))

theorem reformRate_waiting {k : Camera} (h : k.state = .waiting) : reformRate k = k := by simp [reformRate, h, movingState]

theorem tallyCamera_course (on : Bool) (c : Cam) : Course s0 P s P (tallyCamera on s c) := by
  have htune : Course s0 P s P (s.modCam c fun k => reformRate { k with onAir := on }) := by
    refine course_modCam ?_
    rw [(reformRate_eq { s.cam c with onAir := on }).1]
    exact .tunes _ _ _ _ _ id fun ho hrt => reformRate_rt_le (k := { s.cam c with onAir := on }) ho hrt
  unfold tallyCamera
  dsimp only
  split
  · next hw =>
    have hcam : (s.modCam c fun k => reformRate { k with onAir := on }).cam c = { s.cam c with onAir := on } := by
      rw [cam_modCam_self]; exact reformRate_waiting (k := { s.cam c with onAir := on }) hw
    split
    · refine htune.trans (course_modCam (.reasons _ false _ _ (by rw [hcam]; exact hw) fun _ => ⟨id, fun h => ?_⟩))
      rw [h]; rfl
    · split
      · refine reasonGone_course (htune.trans (course_modCam_open (.reasons _ true _ false ?_ nofun))) ?_
        · rw [hcam]; exact hw
        · rw [cam_modCam_self, hcam]; exact hw
      · exact htune
  · exact htune

theorem lines_course (l : LineMonitor) : Course s0 P s P ({ s with lines := l } : State).lineDue := course_frame rfl rfl (lines_orderly l s)

theorem tallyEvent_course (n : Fin 8) (on : Bool) : Course s0 P s P (tallyEvent n on s) := by
  unfold tallyEvent
  refine .trans (.trans (lines_course { s.lines with onAir := s.lines.onAir.set n on }) ?_)
    (foldl_course (fun _ c => tallyCamera_course on c) _ _)
  exact course_ite (course_flag flagTallyEdge) .refl

theorem pins_course (p : Pins) : Course s0 P s P { s with pins := p } := course_block rfl rfl rfl rfl rfl rfl rfl

theorem tallyChange_course (n : Fin 8) (high : Bool) : Course s0 P s P (tallyChange n high s) :=
  .trans (pins_course { s.pins with tally := s.pins.tally.set n high }) (course_ite (tallyEvent_course ..) .refl)

theorem latch_course (c : Cam) : Course s0 P s P (s.modCam c fun k => { k with stopLatch := true }) :=
  course_modCam (.tunes _ true _ _ _ id fun _ h => h)

theorem stopCamera_course (c : Cam) : Course s0 P s P (stopCamera s c) := by
  unfold stopCamera
  split
  · exact .refl
  · exact course_modCam (.reads _ _ (by cases (s.cam c).adoption <;> rfl))
  · next h =>
    have hlatch := (latch_course (s0 := s0) (P := P) (s := s) c).trans
      (course_modCam (c := c) (f := fun k => { k with waitStop := true })
        (.reasons _ false true _ (by rw [cam_modCam_self]; exact h) fun _ => ⟨fun _ => rfl, id⟩))
    rwa [State.modCam_modCam] at hlatch
  · next h => exact drive_course (by rw [h]; rfl) (.stops (.inl h)) (fun _ => Nat.zero_le _) rfl
  · next h =>
    split
    · have hdrive : Course s0 P s P (s.modCam c fun k => reformRate { k with stopLatch := true, halt := true, rate := 0 }) :=
        drive_course (st := .halting) (by rw [h]; rfl) (.slows (s.cam c).abandon) (fun _ => Nat.zero_le 256) (by rw [← h])
      refine hdrive.trans (abandonMove_course ?_)
      rw [cam_modCam_self, (reformRate_eq _).1]; exact congrArg movingState h
    · next ha => exact drive_course (by rw [h]; rfl) (.stops (.inr (by simpa using ha))) (fun _ => Nat.zero_le _) rfl
  · exact latch_course c

theorem stopAsserted_course : Course s0 P s P (stopAsserted s) :=
  .trans ((lines_course { s.lines with stop := true }).trans (course_flag flagStopOn)) (foldl_course (fun _ c => stopCamera_course c) _ _)

theorem stopReleased_course : Course s0 P s P (stopReleased s) :=
  (lines_course { s.lines with stop := false }).trans (course_flag flagStopOff)

theorem stopChange_course (low : Bool) : Course s0 P s P (stopChange low s) := by
  refine .trans (pins_course { s.pins with stopLow := low }) ?_
  exact course_ite (course_ite stopAsserted_course stopReleased_course) .refl

end Sys2Proof.Machine

/-! Ticks, the load, the ends of accesses and the settling of an event as courses of elementary changes. -/

namespace Sys2Proof.Machine

variable {s0 s t u : State} {P Q : Set Cam} {c d : Cam}

/-! Ticks -/

/-- A change of the floor with an examination leaves every other camera that does not wait for floor. -/
def Spares (c : Cam) (s t : State) : Prop := ∀ d, d ≠ c → inWaitingSet (s.cam d) = false → t.cam d = s.cam d

theorem Touches.spares (h : Touches c s t) : Spares c s t := fun d hd _ => h.others d hd

theorem Spares.trans (h : Spares c s t) (k : Spares c t u) : Spares c s u := fun d hd hw => by
  have hst := h d hd hw
  rw [k d hd (by rw [hst]; exact hw), hst]

theorem giveBack_spares (c : Cam) (x y : Int) (s : State) : Spares c s (giveBack c x y s) := by
  intro d hd hw
  unfold giveBack
  dsimp only
  split
  · have hsame : ∀ r : Rect, ((s.freeOutside c (some r)).modCam c fun k => { k with held := some r }).cam d = s.cam d := fun r => by
      rw [cam_modCam_other hd, State.freeOutside_cam]
    rw [releaseExam_cam (by rw [hsame]; exact hw), hsame]
  · rfl

/-- The end of a move touches its own camera and those that wait for floor. -/
theorem completeMove_spares (c : Cam) (s : State) : Spares c s (completeMove c s) :=
  (((endActive_touches c _ _ s).trans (modCam_touches c _ _)).spares.trans (giveBack_spares c _ _ _)).trans (takeHead_touches c _).spares

theorem abandonMove_spares (c : Cam) (s : State) : Spares c s (abandonMove c s) :=
  (((endActive_touches c _ _ s).trans (modCam_touches c _ _)).spares.trans (giveBack_spares c _ _ _)).trans (takeHead_touches c _).spares

theorem restMove_spares (c : Cam) (s : State) : Spares c s (restMove c s) := by
  unfold restMove
  split
  · exact abandonMove_spares c s
  · exact (modCam_touches c _ s).spares

theorem expireWait_touches (c : Cam) (s : State) : Touches c s (expireWait c s) := by
  unfold expireWait
  split
  · exact (endActive_touches c _ _ s).trans (takeHead_touches c _)
  · exact .refl c s

theorem tickStep_spares (old : State) (c : Cam) (s : State) : Spares c s (tickStep old s c) := by
  unfold tickStep
  split
  · split
    · exact completeMove_spares c s
    · exact (Touches.refl c s).spares
  · split
    · exact completeMove_spares c s
    · split
      · exact restMove_spares c s
      · exact (Touches.refl c s).spares
  · split
    · exact (expireWait_touches c s).spares
    · exact (Touches.refl c s).spares
  · exact (Touches.refl c s).spares

theorem restMove_course (h : (s.cam c).state = .halting) : Course s0 P s P (restMove c s) := by
  unfold restMove
  split
  · exact abandonMove_course (by rw [h]; rfl)
  · next ha =>
    exact course_modCam (.drives (s.cam c) .halted (s.cam c).halt (s.cam c).abandon (s.cam c).stopLatch (s.cam c).rate (s.cam c).rt
      (by rw [h]; rfl) (.rests h (by simpa using ha)) id fun _ => id)

theorem expireWait_course (c : Cam) : Course s0 P s P (expireWait c s) := by
  unfold expireWait
  split
  · next h =>
    have hw : (s.cam c).state = .waiting := by
      simp only [waitExpired, Bool.and_eq_true] at h
      exact (inWaitingSet_iff.mp h.1.1).1
    exact endActive_takeHead_course (by rw [hw]; rfl) (by rw [hw]; rfl)
  · exact .refl

/-- The step of a camera that still is in the state it had at the tick, if its move was under way. -/
theorem tickStep_course {old : State} (h : movingState (old.cam c).state = true → (s.cam c).state = (old.cam c).state) :
    Course s0 P s P (tickStep old s c) := by
  unfold tickStep
  split
  · next hm =>
    exact course_ite (completeMove_course (by rw [h (by rw [hm]; rfl), hm]; rfl)) .refl
  · next hm =>
    have hst : (s.cam c).state = .halting := by rw [h (by rw [hm]; rfl), hm]
    exact course_ite (completeMove_course (by rw [hst]; rfl)) (course_ite (restMove_course hst) .refl)
  · exact course_ite (expireWait_course c) .refl
  · exact .refl

theorem inWaitingSet_of_moving {k : Camera} (h : movingState k.state = true) : inWaitingSet k = false :=
  inWaitingSet_of_state fun hw => by rw [hw] at h; cases h

theorem tickSteps_course {old : State} (l : List Cam) (hl : l.Nodup) (s : State)
    (h : ∀ c ∈ l, movingState (old.cam c).state = true → (s.cam c).state = (old.cam c).state) :
    Course s0 P s P (l.foldl (tickStep old) s) := by
  induction l generalizing s with
  | nil => exact .refl
  | cons c l ih =>
    obtain ⟨hc, hl⟩ := List.nodup_cons.mp hl
    refine (tickStep_course (h c List.mem_cons_self)).trans (ih hl _ fun d hd hm => ?_)
    have hst := h d (List.mem_cons_of_mem c hd) hm
    rw [tickStep_spares old c s d (fun he => hc (he ▸ hd)) (inWaitingSet_of_moving (by rw [hst]; exact hm)), hst]

theorem serviceCamera_state (k : Camera) : (serviceCamera (countWait k)).state = k.state := by
  have hcount : ∀ k : Camera, (countWait k).state = k.state := fun k => by unfold countWait; split <;> rfl
  have hserve : ∀ k : Camera, (serviceCamera k).state = k.state := fun k => by
    unfold serviceCamera
    split
    · rfl
    · rfl
    · unfold stepDirect; split <;> rfl
    · rfl
  rw [hserve, hcount]

theorem countWait_change (k0 k : Camera) : CameraChange k0 false k (countWait k) := by
  unfold countWait
  split
  · exact .waits k _ fun _ => Nat.min_le_left _ _
  · exact .waits k k.waitCount id

theorem countInterval_course : Course s0 P s P (countInterval s) := by
  unfold countInterval
  refine course_ite ?_ (modStat_course (modStat_orderly (fun i h => by cases i <;> exact h) rfl rfl (.inl rfl)))
  unfold reachInterval
  refine modStat_course (modStat_orderly (fun i h => ?_) rfl rfl (.inl rfl))
  cases i with
  | syncGroup => rfl
  | record c => simp_all [itemDue]
  | _ => exact h

theorem formWriteOuts_course : Course s0 P s P (formWriteOuts s) := course_block rfl rfl rfl rfl rfl rfl rfl

theorem cam_ofFn (f : Cam → Camera) (s : State) (c : Cam) : ({ s with cams := Vector.ofFn f } : State).cam c = f c := by
  simp [State.cam]

/-- The cameras all change at once. -/
theorem course_all {f : Cam → Camera} (h : ∀ c, CameraChange (s0.cam c) false (s.cam c) (f c)) :
    Course s0 P s P { s with cams := Vector.ofFn f } :=
  .single (.all P s _ (fun c => .inr (by rw [cam_ofFn]; exact h c)) rfl (.of_eq rfl rfl rfl rfl rfl rfl))

theorem allCams_nodup : allCams.Nodup := List.nodup_finRange 8

theorem servicedTick_course (hs : s.cams = s0.cams) : Course s0 P s P (servicedTick s) := by
  unfold servicedTick
  refine .trans (.trans (course_all fun c => .serves (s.cam c) (State.cam_congr hs c)) ?_)
    (formWriteOuts_course.trans countInterval_course)
  exact tickSteps_course allCams allCams_nodup _ fun c _ _ => by rw [cam_ofFn, serviceCamera_state]

theorem missedTick_course : Course s0 P s P (missedTick s) := by
  unfold missedTick
  refine .trans (.trans (course_all fun c => countWait_change (s0.cam c) (s.cam c)) ?_)
    (.trans (.trans (setMissed_course fun _ => Nat.min_le_left _ _) (course_flag flagFrameMissed)) countInterval_course)
  exact foldl_course (fun _ c => course_ite (expireWait_course c) .refl) _ _

theorem modTimer_course {f : FrameTimer → FrameTimer} (hs : (f s.timer).sync = s.timer.sync) (hm : (f s.timer).missed = s.timer.missed) :
    Course s0 P s P (s.modTimer f) := course_frame rfl rfl (modTimer_orderly hs hm)

theorem tick_course (hs : s.cams = s0.cams) (n : Nat) : Course s0 P s P (tick n s) := by
  unfold tick
  exact .trans (modTimer_course rfl rfl) (course_ite (servicedTick_course hs) missedTick_course)

theorem setSync_course (x : SyncState) : Course s0 P s P (s.setSync x) := course_frame rfl rfl (setSync_orderly x s)

theorem timerExpiry_course (hs : s.cams = s0.cams) : Course s0 P s P (timerExpiry s) := by
  unfold timerExpiry
  split
  · exact .refl
  · next n _ =>
    dsimp only
    have hnext : Course s0 P s P (s.modTimer fun m => { m with nextExpiry := some (n + m.tint) }) := modTimer_course rfl rfl
    split
    · have hlost := (modTimer_course (s0 := s0) (P := P) (f := fun m => { m with qualify := 0 })
        (s := s.modTimer fun m => { m with nextExpiry := some (n + m.tint) }) rfl rfl).trans
        ((setSync_course .holdover).trans (course_flag flagSyncLost))
      exact (hnext.trans hlost).trans (tick_course (by exact hs) n)
    · exact hnext.trans (tick_course (by exact hs) n)

theorem judgePoint_course (hs : s.cams = s0.cams) (n : Nat) : Course s0 P s P (judgePoint n s) := by
  unfold judgePoint
  generalize (if goodInterval s.timer n = true then Nat.min 8 (s.timer.qualify + 1) else 0) = q
  dsimp only
  have hjudged : ∀ q : Nat, Course s0 P s P (s.modTimer fun m => { m with qualify := q, lastPoint := some n }) :=
    fun q => modTimer_course rfl rfl
  have hrestarted : ∀ u : State, Course s0 P u P (u.modTimer fun m => { m with nextExpiry := some (n + lossTime m) }) :=
    fun u => modTimer_course rfl rfl
  split
  · refine .trans (.trans (hjudged q) (hrestarted _)) (course_ite ?_ .refl)
    refine .trans (setSync_course .locked) ?_
    split
    · exact .trans (course_flag flagSyncRegained) (tick_course (by exact hs) n)
    · exact tick_course (by exact hs) n
  · exact hjudged _

theorem refPoint_course (hs : s.cams = s0.cams) (n : Nat) : Course s0 P s P (refPoint n s) := by
  unfold refPoint
  split
  · exact .trans (modTimer_course rfl rfl) (tick_course (by exact hs) n)
  · exact judgePoint_course hs n
  · exact judgePoint_course hs n
  · exact modTimer_course rfl rfl

theorem takeRefEdge_course (hs : s.cams = s0.cams) (falling : Bool) (n : Nat) : Course s0 P s P (takeRefEdge falling n s) := by
  unfold takeRefEdge
  have hdiv : ∀ k : Nat, Course s0 P s P (s.modTimer fun m => { m with divCount := k }) := fun k => modTimer_course rfl rfl
  exact course_ite (course_ite ((hdiv 0).trans (refPoint_course (by exact hs) n)) (hdiv _)) .refl

end Sys2Proof.Machine

/-! What one step can do: nothing, the reset, or a course of elementary changes with the due marks of the records and the grant (R87, R151,
R161, R169). -/

namespace Sys2Proof.Machine

variable {s0 s t u : State} {P Q : Set Cam} {c d : Cam}

/-! The load -/

/-- A setting of the lines leaves their levels. -/
theorem setLines_course {l : LineMonitor} (ha : l.onAir = s.lines.onAir) (hs : l.stop = s.lines.stop) :
    Course s0 P s P { s with lines := l } := by
  refine course_frame rfl rfl ⟨id, id, id, fun _ => id, fun i hi hc => ?_⟩
  cases i with
  | lineState => exact absurd hc (not_or.mpr ⟨not_not.mpr ha, not_not.mpr hs⟩)
  | record c => exact absurd rfl (hi c)
  | flags => obtain ⟨b, -, hb, hb'⟩ := hc; exact absurd (hb.symm.trans hb') nofun
  | _ => exact absurd rfl hc

/-- A setting of the floor leaves its cells and zones. -/
theorem setFloor_course {f : FloorMap} (hc : f.cells = s.floor.cells) (hz : f.zones = s.floor.zones) :
    Course s0 P s P { s with floor := f } := by
  refine course_zone rfl (.bounds hc fun z => ?_) (.of_marked id id id (fun _ => id) fun i => .inl ?_)
  · simp only [hz]; exact ⟨trivial, trivial⟩
  · cases i <;> first | rfl | trivial | simp only [SameReport, hc, hz]

theorem takeSetting_course (n : Nat) (w : BitVec 16) : Course s0 P s P (takeSetting n w s) := by
  unfold takeSetting
  split
  · exact course_block rfl rfl rfl rfl rfl rfl rfl
  · exact modTimer_course rfl rfl
  · exact modTimer_course rfl rfl
  · exact modTimer_course rfl rfl
  · exact modTimer_course rfl rfl
  · exact modStat_course (modStat_orderly (fun i h => by cases i <;> exact h) rfl rfl (.inl rfl))
  · exact setLines_course rfl rfl
  · exact setLines_course rfl rfl
  · exact setFloor_course rfl rfl
  · exact setFloor_course rfl rfl
  · exact setFloor_course rfl rfl
  · exact setFloor_course rfl rfl
  · exact setFloor_course rfl rfl
  · exact .refl

theorem loadEntry_course (l : List MWord) : Course s0 P s P { s with loadEntry := l } := course_block rfl rfl rfl rfl rfl rfl rfl

theorem fenceOfWords_course (n : Fin 8) (ws : List MWord) :
    Course s0 P s P { s with fences := s.fences.set n (fenceOfWords s.fences[n].hits ws) } := by
  have hsame : ∀ m : Fin 8, (s.fences.set n (fenceOfWords s.fences[n].hits ws))[m].hits = s.fences[m].hits := fun m => by
    simp only [Fin.getElem_fin, Vector.getElem_set]
    split
    · next h => simp only [fenceOfWords, h]
    · rfl
  refine course_frame rfl rfl (.of_marked id (fun h m => (hsame m).le.trans (h m)) id (fun _ => id) fun i => .inl ?_)
  cases i <;> first | exact hsame _ | rfl | trivial

theorem loadFence_course (n : Fin 8) (k : Nat) (w : MWord) : Course s0 P s P (loadFence n k w s) := by
  unfold loadFence
  dsimp only
  split
  · exact loadEntry_course _
  · exact .trans (loadEntry_course []) (course_ite (fenceOfWords_course n _) .refl)

theorem loadZone_course (z : Fin 16) (k : Nat) (w : MWord) : Course s0 P s P (loadZone z k w s) := by
  unfold loadZone
  dsimp only
  split
  · exact .trans (loadEntry_course _) (takeBound_course ..)
  · exact .trans (loadEntry_course []) (course_ite (applyZone_course z) .refl)

theorem startup_course (x : Startup) (l : List MWord) : Course s0 P s P { s with startup := x, loadEntry := l } :=
  course_block rfl rfl rfl rfl rfl rfl rfl

theorem sampleLines_course : Course s0 P s P (sampleLines s) := lines_course _

theorem endLoad_course : Course s0 P s P (endLoad s) := by
  refine .trans (startup_course .running s.loadEntry) (.trans ?_ sampleLines_course)
  exact .trans (modTimer_course rfl rfl) (setSync_course _)

theorem startupRead_course (n : Nat) (a : Addr) (w : MWord) : Course s0 P s P (startupRead n a w s) := by
  unfold startupRead
  refine .trans (.trans (readFault_course w a) ?_) (course_ite (startup_course (.reading (n + 1)) _) (startup_course (.writing 0) []))
  exact course_ite (takeSetting_course ..) (course_ite (loadFence_course ..) (loadZone_course ..))

theorem startupWrite_course (n : Nat) : Course s0 P s P (startupWrite n s) := course_ite (startup_course _ _) endLoad_course

theorem markItem_due (i j : StatusItem) (w : StatusWriter) (h : itemDue j w = true) : itemDue j (markItem i true w) = true := by
  rw [itemDue_markItem]
  split
  · rfl
  · exact h

theorem markItem_course (i : StatusItem) : Course s0 P s P (s.modStat (markItem i true)) :=
  modStat_course (modStat_orderly (fun j => markItem_due i j s.stat) (by cases i <;> rfl) (by cases i <;> rfl)
    (.inl (by cases i <;> rfl)))

theorem startupWriteTimeout_course (n : Nat) : Course s0 P s P (startupWriteTimeout n s) := by
  unfold startupWriteTimeout
  refine .trans ?_ (startupWrite_course n)
  split
  · exact markItem_course _
  · exact .refl

/-! The ends of accesses -/

theorem freePort_course : Course s0 P s P s.freePort := course_block rfl rfl rfl rfl rfl rfl rfl

theorem landWrite_course (a : Access) : Course s0 P s P (landWrite a s) := by
  obtain ⟨m, hm⟩ := landWrite_eq a s
  exact course_frame (by rw [hm]) (by rw [hm]) (landWrite_orderly a s)

theorem endWrite_course (a : Access) : Course s0 P s P (endWrite a s).1 := by
  unfold endWrite
  dsimp only
  split
  · exact (landWrite_course a).trans (course_block rfl rfl rfl rfl rfl rfl rfl)
  · exact (landWrite_course a).trans freePort_course

theorem endHostAccess_course (answer : Option MWord) : Course s0 P s P (endHostAccess answer s) := by
  unfold endHostAccess
  split
  · next a _ =>
    split
    · exact .trans (endWrite_course a) (course_ite (hostEnded_course ..) .refl)
    · exact .refl
  · exact .refl

theorem dropWriteOut_course (c : Cam) : Course s0 P s P (dropWriteOut c s) := course_block rfl rfl rfl rfl rfl rfl rfl

theorem dropItem_course (i : StatusItem) : Course s0 P s P (dropItem i s) := by
  refine modStat_course (modStat_orderly (fun j h => ?_) (by cases i <;> rfl) (by cases i <;> rfl) (.inl (by cases i <;> rfl)))
  exact markItem_due i j _ (by cases j <;> exact h)

theorem ownerTimeout_course (hs : s.cams = s0.cams) (a : Access) : Course s0 P s P (ownerTimeout a s) := by
  unfold ownerTimeout
  split
  · exact hostTimedOut_course ..
  · exact startup_course (.writing 0) []
  · exact startupWriteTimeout_course _
  · next c _ => exact course_ite (timeoutAdoption_course (State.cam_congr hs c)) .refl
  · exact course_ite timeoutShot_course .refl
  · exact course_ite timeoutShot_course .refl
  · exact course_ite (dropWriteOut_course _) .refl
  · exact .refl
  · exact dropItem_course _

theorem timeoutAccess_course (hs : s.cams = s0.cams) (landed : Bool) (a : Access) : Course s0 P s P (timeoutAccess landed a s) := by
  unfold timeoutAccess
  obtain ⟨m, hm⟩ := landWrite_eq a s
  refine .trans (course_ite (landWrite_course a) .refl) (.trans (.trans freePort_course (course_error ..)) (ownerTimeout_course ?_ a))
  split
  · rw [hm]; exact hs
  · exact hs

theorem writeOutEnded_course (a : Access) : Course s0 P s P (writeOutEnded a s) := by
  unfold writeOutEnded
  split
  · exact .trans (course_ite (dropWriteOut_course _) .refl) (course_modCam (.notes _ _ _ _ _ _ _ id))
  · exact .refl

theorem statusEnded_course : Course s0 P s P (statusEnded s) :=
  course_ite (modStat_course (modStat_orderly (fun i h => by cases i <;> exact h) rfl rfl (.inl rfl))) .refl

/-! One step -/

/-- The event takes the part from s to t: elementary changes after which every camera is at rest, the due marks of the records, and the grant
(R161, R169). -/
def Settles (s t : State) : Prop := ∃ (u : State) (free : Bool), Course s ∅ s ∅ u ∧ t = arbitrate free (markRecords s u)

theorem settleWith_settles (h : Course s ∅ s ∅ u) (free : Bool) : Settles s (settleWith free s u) :=
  ⟨_, free, ((h.trans startRequests_course).trans pumpHost_course).trans startRequests_course, rfl⟩

theorem settle_settles (h : Course s ∅ s ∅ u) : Settles s (settle s u) := settleWith_settles h _

theorem grantHost_course (s : State) : Course s0 P s P ((grantHost s).getD s) := by
  unfold grantHost
  cases s.bus.req with
  | none => exact .refl
  | some a => exact course_block rfl rfl rfl rfl rfl rfl rfl

theorem completeWrite_settles (off : Offset) (w : MWord) (s : State) : Settles s (completeWrite off w s) := by
  unfold completeWrite
  dsimp only
  split
  · exact settle_settles (endHostAccess_course none)
  · split
    · exact settleWith_settles (((present_course _).trans (grantHost_course _)).trans (endHostAccess_course none)) false
    · exact settle_settles (present_course _)

/-- What an end of an access, taken where the owner is the right one, does: nothing, or what its event does. -/
def Does (s : State) (r : Answer) : Prop := ∀ t, r = .next t → t = s ∨ Settles s t

theorem does_stay (s : State) : Does s (.next s) := fun _ h => .inl (Host.Outcome.next.inj h).symm

theorem does_settle (h : Course s ∅ s ∅ u) : Does s (.next (settle s u)) := fun _ ht => .inr ((Host.Outcome.next.inj ht) ▸ settle_settles h)

theorem does_ite {p : Prop} [Decidable p] {a b : Answer} (ha : Does s a) (hb : Does s b) : Does s (if p then a else b) := by
  split
  · exact ha
  · exact hb

theorem does_present (x : HostAccess) : Does s (.next (settle s (present x s))) := does_settle (present_course x)

theorem does_completeWrite (off : Offset) (w : MWord) : Does s (.next (completeWrite off w s)) :=
  fun _ ht => .inr ((Host.Outcome.next.inj ht) ▸ completeWrite_settles off w s)

theorem does_portAccess {p : Owner → Bool} {f : Access → Answer} (h : ∀ a, Does s (f a)) :
    Does s (match portAccess p s with | some a => f a | none => .next s) := by
  split
  · exact h _
  · exact does_stay s

theorem does_startupReadEnd (answer : Option MWord) : Does s (execStartupReadEnd answer s) :=
  does_portAccess fun a => by
    split
    · exact does_settle (freePort_course.trans (startupRead_course ..))
    · exact does_stay s

theorem does_startupWriteEnd : Does s (execStartupWriteEnd s) :=
  does_portAccess fun a => by
    split
    · exact does_settle ((endWrite_course a).trans (startupWrite_course _))
    · exact does_stay s

theorem does_adoptionReadEnd (answer : Option MWord) : Does s (execAdoptionReadEnd answer s) :=
  does_portAccess fun a => by
    split
    · exact does_settle (freePort_course.trans (adoptionRead_course (by rfl) ..))
    · exact does_settle freePort_course

theorem does_fetchReadEnd (answer : Option MWord) : Does s (execFetchReadEnd answer s) :=
  does_portAccess fun _ => does_ite (does_settle (freePort_course.trans (fetchRead_course ..))) (does_settle freePort_course)

theorem does_captureWriteEnd : Does s (execCaptureWriteEnd s) :=
  does_portAccess fun a => does_settle ((endWrite_course a).trans (course_ite captureWrite_course .refl))

theorem does_writeOutWriteEnd : Does s (execWriteOutWriteEnd s) :=
  does_portAccess fun a => does_settle ((endWrite_course a).trans (writeOutEnded_course a))

theorem does_directFillWriteEnd : Does s (execDirectFillWriteEnd s) := does_portAccess fun a => does_settle (endWrite_course a)

theorem does_statusWriteEnd : Does s (execStatusWriteEnd s) :=
  does_portAccess fun a => does_settle ((endWrite_course a).trans statusEnded_course)

theorem does_hostAccessEnd (answer : Option MWord) : Does s (execHostAccessEnd answer s) :=
  does_portAccess fun _ => does_settle (endHostAccess_course answer)

theorem does_memoryTimeout (landed : Bool) : Does s (execMemoryTimeout landed s) := by
  unfold execMemoryTimeout
  split
  · exact does_settle (timeoutAccess_course rfl landed _)
  · exact does_stay s

theorem does_floorTimeout (c : Cam) : Does s (execFloorTimeout c s) :=
  does_ite (does_settle ((course_modCam (.waits (s.cam c) _ fun _ => Nat.min_le_left _ _)).trans (expireWait_course c))) (does_stay s)

theorem reachInterval_course : Course s0 P s P (reachInterval s) := by
  refine modStat_course (modStat_orderly (fun i h => ?_) rfl rfl (.inl rfl))
  cases i with
  | syncGroup => rfl
  | record c => simp_all [itemDue]
  | _ => exact h

/-- Every command but the reset's assertion settles, or leaves the part as it is. -/
theorem exec_does {i : Instr} (hi : ∀ landed, i ≠ .resetAssert landed) (s : State) : Does s (exec i s) := by
  cases i with
  | resetAssert landed => exact absurd rfl (hi landed)
  | resetRelease straps => exact does_ite (does_settle (course_block rfl rfl rfl rfl rfl rfl rfl)) (does_stay s)
  | startupReadEnd answer => exact does_startupReadEnd answer
  | startupWriteEnd => exact does_startupWriteEnd
  | hostAccessEnd answer => exact does_hostAccessEnd answer
  | memoryTimeout landed => exact does_memoryTimeout landed
  | adoptionReadEnd answer => exact does_adoptionReadEnd answer
  | fetchReadEnd answer => exact does_fetchReadEnd answer
  | captureWriteEnd => exact does_captureWriteEnd
  | writeOutWriteEnd => exact does_writeOutWriteEnd
  | directFillWriteEnd => exact does_directFillWriteEnd
  | statusWriteEnd => exact does_statusWriteEnd
  | intervalTimerExpiry => exact does_ite (does_settle (timerExpiry_course rfl)) (does_stay s)
  | refEdge falling n => exact does_ite (does_settle (takeRefEdge_course rfl falling n)) (does_stay s)
  | floorTimeout c => exact does_floorTimeout c
  | statusInterval => exact does_ite (does_settle reachInterval_course) (does_stay s)
  | tallyEvent n high => exact does_ite (does_stay s) (does_settle (tallyChange_course n high))
  | stopAssert => exact does_ite (does_stay s) (does_settle (stopChange_course true))
  | stopRelease => exact does_ite (does_settle (stopChange_course false)) (does_stay s)
  | hostRead | hostWrite | regionWriteRefused | flagsWordWrite | maskWordWrite | captureClearWrite | missedFrameCounterWrite
  | fenceHitCounterWrite | fenceBoundWrite | probeLowHalfWrite | probeHighHalfWrite | directSlotLowHalfWrite | directSlotHighHalfWrite
  | floorSlotWriteRefused | setpointFrameWriteRefused | configBlockWrite | shotStoreWrite | zoneBoundWrite | mailboxLatchWrite =>
    exact does_present _
  | fenceModeWrite | zoneApply | zoneRemove | goto | ret | halt | resume | abandon | override | flush | capture | direct | release | enable
  | disable | postUnknownKind => exact does_completeWrite _ _

/-- A step does nothing, is the reset, or settles; the state it takes is s but for the commands that wait. -/
theorem step_does {s t : State} (h : step s = .next t) :
    ∃ rest, t = s ∨ t = { s with pending := rest } ∨ (∃ landed, t = resetState (landedState landed { s with pending := rest })) ∨
      Settles { s with pending := rest } t := by
  obtain rfl | ⟨i, rest, -, hx⟩ := step_cases h
  · exact ⟨[], .inl rfl⟩
  · refine ⟨rest, ?_⟩
    by_cases hi : ∀ landed, i ≠ .resetAssert landed
    · rcases exec_does hi _ t hx with ht | ht
      · exact .inr (.inl ht)
      · exact .inr (.inr (.inr ht))
    · push Not at hi
      obtain ⟨landed, rfl⟩ := hi
      exact .inr (.inr (.inl ⟨landed, (Host.Outcome.next.inj (exec_resetAssert landed _ ▸ hx)).symm⟩))

end Sys2Proof.Machine

/-! The memory's form, the ranges, and the due marks: what every change keeps, every step keeps (R165, R168, R169). -/

namespace Sys2Proof.Machine

variable {s0 s t u : State} {P Q : Set Cam} {c d : Cam}

/-! What a course keeps -/

/-- What every change keeps, a course keeps. -/
theorem Course.keeps {I : Set Cam × State → Prop} (h : Course s0 P s Q t) (hI : ∀ a b, Change s0 a b → I a → I b) (hs : I (P, s)) :
    I (Q, t) := Relation.ReflTransGen.head_induction_on h (motive := fun a _ => I a → I (Q, t)) id (fun h _ ih hi => ih (hI _ _ h hi)) hs

theorem Change.orderly {a b : Set Cam × State} (h : Change s0 a b) : Orderly a.2 b.2 := by
  cases h with
  | cam => assumption
  | all => assumption
  | disable => assumption
  | zone => assumption
  | rest => exact .refl _

theorem Course.orderly (h : Course s0 P s Q t) : Orderly s t :=
  h.keeps (I := fun a => Orderly s a.2) (fun _ _ hc hi => hi.trans hc.orderly) (.refl s)

theorem cam_of_set {k : Camera} (h : t.cams = s.cams.set c k) (d : Cam) : t.cam d = if d = c then k else s.cam d := by
  simp only [State.cam, h, Fin.getElem_fin, Vector.getElem_set, Fin.ext_iff, eq_comm]

/-- What every change of a camera and the camera's leaving keep, every camera keeps over a change. -/
theorem Change.cameras {J : Cam → Camera → Prop} (hchange : ∀ c b k k', CameraChange (s0.cam c) b k k' → J c k → J c k')
    (hleave : ∀ c k, enabledState k.state = true → J c k → J c (disabledCamera k)) {a b : Set Cam × State} (h : Change s0 a b)
    (hJ : ∀ c, J c (a.2.cam c)) (d : Cam) : J d (b.2.cam d) := by
  cases h with
  | cam P s t c b k hk hcams =>
    rw [cam_of_set hcams]
    split
    · next he => exact he ▸ hchange c b _ _ hk (hJ c)
    · exact hJ d
  | all P s t hcams =>
    rcases hcams d with he | he
    · exact he ▸ hJ d
    · exact hchange d false _ _ he (hJ d)
  | disable P s t c he hcams =>
    rw [cam_of_set hcams]
    split
    · next hd => exact hd ▸ hleave c _ he (hJ c)
    · exact hJ d
  | zone P s t hcams => exact State.cam_congr hcams d ▸ hJ d
  | rest => exact hJ d

theorem Course.cameras {J : Cam → Camera → Prop} (h : Course s0 P s Q t)
    (hchange : ∀ c b k k', CameraChange (s0.cam c) b k k' → J c k → J c k')
    (hleave : ∀ c k, enabledState k.state = true → J c k → J c (disabledCamera k)) (hJ : ∀ c, J c (s.cam c)) : ∀ c, J c (t.cam c) :=
  h.keeps (I := fun a => ∀ c, J c (a.2.cam c)) (fun _ _ hc hi => hc.cameras hchange hleave hi) hJ

/-- The due marks of the records and the grant leave memory, cameras, floor and blocks. -/
theorem settled_calm (free : Bool) (s u : State) : Calm u (arbitrate free (markRecords s u)) :=
  (markRecords_calm s u).trans (arbitrate_calm ..)

/-! Form and ranges -/

/-- The ranges of a camera's counters and rates (R29, R31, R109, R137). -/
structure CameraRanges (k : Camera) : Prop where
  blocked : k.blocked ≤ 255
  override : 1 ≤ k.override ∧ k.override ≤ 256
  rate : k.rate ≤ 256
  rt : k.rt ≤ 256
  waitCount : k.waitCount ≤ 65535

theorem rangesHold_iff (s : State) :
    RangesHold s ↔ (∀ n : Fin 8, s.fences[n].hits ≤ 255) ∧ s.timer.missed ≤ 255 ∧ ∀ c, CameraRanges (s.cam c) :=
  ⟨fun ⟨hh, hm, hb, ho, hr, hw⟩ => ⟨hh, hm, fun c => ⟨hb c, ho c, (hr c).1, (hr c).2, hw c⟩⟩,
    fun ⟨hh, hm, hc⟩ => ⟨hh, hm, fun c => (hc c).blocked, fun c => (hc c).override, fun c => ⟨(hc c).rate, (hc c).rt⟩,
      fun c => (hc c).waitCount⟩⟩

theorem slewRate_le {step rate rt : Nat} (hr : rate ≤ 256) (ht : rt ≤ 256) : slewRate step rate rt ≤ 256 := by
  unfold slewRate
  split
  · exact (Nat.min_le_right _ _).trans ht
  · split
    · exact Nat.max_le.mpr ⟨(Nat.sub_le _ _).trans hr, ht⟩
    · exact hr

theorem serviceCamera_ranges {k : Camera} (h : CameraRanges k) : CameraRanges (serviceCamera k) := by
  have hadvance : CameraRanges (advanceMove k) := ⟨h.blocked, h.override, slewRate_le h.rate h.rt, h.rt, h.waitCount⟩
  unfold serviceCamera
  split
  · exact hadvance
  · exact hadvance
  · unfold stepDirect
    split
    · exact h
    · exact ⟨h.blocked, h.override, h.rate, h.rt, h.waitCount⟩
  · exact h

theorem countWait_ranges {k : Camera} (h : CameraRanges k) : CameraRanges (countWait k) := by
  unfold countWait
  split
  · exact ⟨h.blocked, h.override, h.rate, h.rt, Nat.min_le_left _ _⟩
  · exact h

theorem CameraChange.ranges {k0 k k' : Camera} {b : Bool} (hc : CameraChange k0 b k k') (h : CameraRanges k) : CameraRanges k' := by
  obtain ⟨hb, ho, hr, ht, hw⟩ := h
  cases hc with
  | notes _ r n st l bank bl hbl => exact ⟨hbl hb, ho, hr, ht, hw⟩
  | cueEnds => exact ⟨hb, ho, hr, ht, Nat.zero_le _⟩
  | moveEnds => exact ⟨hb, ho, hr, ht, Nat.zero_le _⟩
  | begins =>
    have hrate : (begun k).rt ≤ 256 ∧ (begun k).rate ≤ 256 := by
      dsimp only [begun]
      exact ⟨(rateTarget_le _).trans ho.2, (rateTarget_le _).trans ho.2⟩
    exact ⟨hb, ho, hrate.2, hrate.1, Nat.zero_le _⟩
  | plans =>
    refine ⟨hb, ho, Nat.zero_le _, ht, ?_⟩
    dsimp only [writePlan]
    split
    · exact Nat.zero_le _
    · exact hw
  | drives _ st h a l r x _ _ hr' hx => exact ⟨hb, ho, hr' hr, hx ho.2 ht, hw⟩
  | tunes _ l o v x hv hx => exact ⟨hb, hv ho, hr, hx ho.2 ht, hw⟩
  | waits _ n hn => exact ⟨hb, ho, hr, ht, hn hw⟩
  | adopts => exact ⟨hb, by simp [adoptedCamera], Nat.zero_le _, Nat.zero_le _, Nat.zero_le _⟩
  | serves => exact serviceCamera_ranges (countWait_ranges ⟨hb, ho, hr, ht, hw⟩)
  | _ => exact ⟨hb, ho, hr, ht, hw⟩

theorem Course.ranges (h : Course s0 P s Q t) (hs : RangesHold s) : RangesHold t := by
  obtain ⟨hh, hm, hc⟩ := (rangesHold_iff s).mp hs
  exact (rangesHold_iff t).mpr ⟨h.orderly.hits hh, h.orderly.missed hm,
    h.cameras (J := fun _ => CameraRanges) (fun _ _ _ _ hc => hc.ranges)
      (fun _ _ _ hk => ⟨hk.blocked, hk.override, hk.rate, hk.rt, Nat.zero_le _⟩) hc⟩

theorem Calm.ranges (h : Calm s t) (hs : RangesHold s) : RangesHold t := by
  obtain ⟨hh, hm, hc⟩ := (rangesHold_iff s).mp hs
  exact (rangesHold_iff t).mpr ⟨by rw [h.fences]; exact hh, by rw [h.timer]; exact hm, fun c => by rw [h.cam]; exact hc c⟩

/-- A property that says nothing about the commands that wait is kept by every step when it holds after the reset and every event keeps it. -/
theorem step_keeps {I : State → Prop} (hpending : ∀ s rest, I s → I { s with pending := rest })
    (hreset : ∀ s landed, I s → I (resetState (landedState landed s)))
    (hevent : ∀ s u free, I s → Course s ∅ s ∅ u → I (arbitrate free (markRecords s u))) {s t : State} (h : step s = .next t) (hs : I s) :
    I t := by
  obtain ⟨rest, rfl | rfl | ⟨landed, rfl⟩ | ⟨u, free, hu, rfl⟩⟩ := step_does h
  · exact hs
  · exact hpending s rest hs
  · exact hreset _ landed (hpending s rest hs)
  · exact hevent _ u free (hpending s rest hs) hu

/-- Settles O52: every elementary change keeps the form of memory and the ranges. -/
theorem stepKeepsFormAndRanges : Obligations.StepKeepsFormAndRanges := by
  intro s t h
  refine ⟨step_keeps (fun _ _ => id) (fun s landed hs => ?_) (fun s u free hs hu => ?_) h,
    step_keeps (fun _ _ hs => ⟨hs.hits, hs.missed, hs.blocked, hs.override, hs.rate, hs.waitCount⟩) (fun s landed _ => ?_)
      (fun s u free hs hu => ?_) h⟩
  · unfold landedState
    split
    · split
      · exact (landWrite_orderly _ s).mem hs
      · exact hs
    · exact hs
  · have hmem := hu.orderly.mem hs
    unfold MemoryForm at hmem ⊢
    rwa [(settled_calm free s u).mem]
  · have hr := rangesHold_reset
    exact ⟨hr.hits, hr.missed, hr.blocked, hr.override, hr.rate, hr.waitCount⟩
  · exact (settled_calm free s u).ranges (hu.ranges hs)

/-! Due marks -/

/-- An item that is due stays so, or is taken up (R168). -/
def KeepsDue (s t : State) : Prop := ∀ i, itemDue i s.stat = true → itemDue i t.stat = true ∨ TakenUp i t

theorem KeepsDue.of_stat (h : t.stat = s.stat) : KeepsDue s t := fun i hi => .inl (by rw [h]; exact hi)

/-- A grant that takes an item up holds the port with its first word. -/
theorem grant_takeItem_keepsDue {i : StatusItem} {x : Access} (hst : ∀ j, itemDue j t.stat = itemDue j (takeItem i s.stat)) (hp : t.port.cur = some x)
    (hx : x.owner = .status i ∨ ∃ n, x.owner = .startupWrite n ∧ loadItem n = some (i, true)) : KeepsDue s t := fun j hj => by
  by_cases he : j = i
  · exact .inr (he ▸ ⟨x, hp, hx⟩)
  · refine .inl ?_
    rw [hst, itemDue_takeItem, if_neg he]
    exact hj

theorem grantSetpoint_keepsDue (h : grantSetpoint s = some t) : KeepsDue s t := by
  have hfill : ∀ u, grantFirstFill s = some u → KeepsDue s u := fun u hu => by
    unfold grantFirstFill at hu
    split at hu
    · cases hu; exact .of_stat rfl
    · cases hu
  unfold grantSetpoint at h
  split at h
  · split at h
    · cases h; exact .of_stat rfl
    · cases hf : grantFirstFill s with
      | none => rw [hf] at h; cases h; exact .of_stat rfl
      | some u => rw [hf] at h; cases h; exact hfill _ hf
  · exact hfill _ h

theorem grantShot_keepsDue (h : grantShot s = some t) : KeepsDue s t := by
  simp only [grantShot, Option.map_eq_some_iff] at h
  obtain ⟨op, -, rfl⟩ := h
  split <;> exact .of_stat rfl

theorem grantLoadWrite_keepsDue (n : Nat) (s : State) : KeepsDue s (grantLoadWrite n s) := by
  unfold grantLoadWrite
  dsimp only
  split
  · next i hi => exact grant_takeItem_keepsDue (i := i) (fun _ => rfl) rfl (.inr ⟨n, rfl, hi⟩)
  · exact .of_stat rfl

theorem grantAdopt_keepsDue (h : grantAdopt s = some t) : KeepsDue s t := by
  unfold grantAdopt at h
  split at h
  · cases h
  · cases h; exact .of_stat rfl
  · cases h; exact grantLoadWrite_keepsDue _ s
  · unfold grantAdoption at h
    split at h
    · cases h
    · split at h
      · cases h
      · obtain ⟨off, -, rfl⟩ := Option.map_eq_some_iff.mp h
        exact .of_stat rfl

theorem grantStatus_keepsDue (h : grantStatus s = some t) : KeepsDue s t := by
  unfold grantStatus at h
  split at h
  · cases h
  · split at h
    · cases h
      exact fun i hi => .inl (by cases i <;> exact hi)
    · split at h
      · cases h
      · next i _ =>
        dsimp only at h
        split at h
        · cases h
        · cases h
          exact grant_takeItem_keepsDue (i := i) (fun j => by cases j <;> rfl) rfl (.inl rfl)

theorem ownGrants_keepsDue (h : t ∈ ownGrants s) : KeepsDue s t := by
  simp only [ownGrants, List.mem_filterMap, List.mem_cons, List.not_mem_nil, or_false, id_eq, exists_eq_right] at h
  rcases h with h | h | h | h
  · exact grantSetpoint_keepsDue h.symm
  · exact grantShot_keepsDue h.symm
  · exact grantAdopt_keepsDue h.symm
  · exact grantStatus_keepsDue h.symm

theorem grantHost_keepsDue (h : grantHost s = some t) : KeepsDue s t := by
  obtain ⟨a, -, rfl⟩ := Option.map_eq_some_iff.mp h
  exact .of_stat rfl

/-- The grant is one of the grants asked for, its count of free choices apart, or there is none. -/
theorem arbitrate_granted (free : Bool) (s : State) :
    arbitrate free s = s ∨ ∃ t n, (t ∈ ownGrants s ∨ grantHost s = some t) ∧ arbitrate free s = { t with port := { t.port with picks := n } } := by
  have hgot : ∀ t, t ∈ ownGrants s ∨ grantHost s = some t →
      ∃ t' n, (t' ∈ ownGrants s ∨ grantHost s = some t') ∧ t = { t' with port := { t'.port with picks := n } } :=
    fun t ht => ⟨t, t.port.picks, ht, rfl⟩
  have hmem : ∀ t, t ∈ ownGrants s ++ (grantHost s).toList → t ∈ ownGrants s ∨ grantHost s = some t := fun t ht => by
    simpa using ht
  unfold arbitrate
  split
  · exact .inl rfl
  · split
    · unfold pickGrant
      split
      · exact .inl rfl
      · next t he => exact .inr (hgot t (hmem t (by rw [he]; exact List.mem_singleton_self t)))
      · refine (Nat.eq_zero_or_pos (ownGrants s ++ (grantHost s).toList).length).elim (fun h0 => ?_) fun hpos => ?_
        · next hne _ => exact absurd (List.length_eq_zero_iff.mp h0) hne
        · refine .inr ⟨_, s.port.picks + 1, hmem _ ?_, rfl⟩
          rw [List.getD_eq_getElem _ _ (Nat.mod_lt _ hpos)]
          exact List.getElem_mem _
    · have hhead : ∀ d, (ownGrants s).head?.getD d = d ∨ (ownGrants s).head?.getD d ∈ ownGrants s := fun d => by
        cases ownGrants s with
        | nil => exact .inl rfl
        | cons t l => exact .inr List.mem_cons_self
      unfold ruleGrant
      split
      · next t hh =>
        refine .inr (hgot _ ?_)
        split
        · exact .inr hh
        · rcases hhead t with he | he
          · exact .inr (by rw [he]; exact hh)
          · exact .inl he
      · rcases hhead s with he | he
        · exact .inl he
        · exact .inr (hgot _ (.inl he))

theorem arbitrate_keepsDue (free : Bool) (s : State) : KeepsDue s (arbitrate free s) := by
  rcases arbitrate_granted free s with h | ⟨t, n, ht, h⟩
  · rw [h]; exact .of_stat rfl
  · rw [h]
    exact ht.elim ownGrants_keepsDue grantHost_keepsDue

/-- What R169 lists of a camera is what the Status Writer compares. -/
theorem recordReport_of_reported {k k' : Camera} (h : reported k = reported k') : recordReport k = recordReport k' := by
  simp only [reported, List.cons_append, List.nil_append, Prod.mk.injEq, List.cons.injEq] at h
  obtain ⟨⟨hstate, hmarks, hmask, hcount, hblocked, hheld⟩, hstack, hactive, hqueue⟩ := h
  simp only [recordReport, activeWords, queueWords, hstate, hmarks, hmask, hcount, hblocked, hheld, hstack, hactive, hqueue]

/-- The marks at the end of an event: every reported change is due (R168, R169). -/
theorem markRecords_due (h : Orderly s u) (i : StatusItem) (hc : ReportChanged s u i) : itemDue i (markRecords s u).stat = true := by
  by_cases hi : ∃ c, i = .record c
  · obtain ⟨c, rfl⟩ := hi
    have hne : reported (s.cam c) ≠ reported (u.cam c) := fun he => hc (recordReport_of_reported he).symm
    simp [markRecords, State.modStat, itemDue, hne]
  · have hdue := h.marked i (fun c he => hi ⟨c, he⟩) hc
    cases i with
    | record c => exact absurd ⟨c, rfl⟩ hi
    | _ => exact hdue

theorem Calm.reportChanged (h : Calm u t) {i : StatusItem} (hc : ReportChanged s t i) : ReportChanged s u i := by
  cases i with
  | flags => simpa only [ReportChanged, h.flags] using hc
  | capture => simpa only [ReportChanged, h.capture] using hc
  | lineState => simpa only [ReportChanged, h.lines] using hc
  | syncGroup => simpa only [ReportChanged, h.timer] using hc
  | missed => simpa only [ReportChanged, h.timer] using hc
  | hits n => simpa only [ReportChanged, h.fences] using hc
  | probe => simpa only [ReportChanged, h.probe] using hc
  | zone z => simpa only [ReportChanged, h.floor] using hc
  | record c => simpa only [ReportChanged, h.cam] using hc
  | cell x y => simpa only [ReportChanged, h.floor] using hc

theorem reportChanged_self {i : StatusItem} (h : SameReport s t i) (hcams : t.cams = s.cams) : ¬ReportChanged s t i := by
  by_cases hi : ∃ c, i = .record c
  · obtain ⟨c, rfl⟩ := hi
    exact fun hc => hc (by rw [State.cam_congr hcams c])
  · exact h.not_changed fun c he => hi ⟨c, he⟩

/-- Settles O58: every change is orderly, the records are marked at the end of the event, and a grant clears the mark of the item it takes up
alone. -/
theorem changesAreMarkedDue : Obligations.ChangesAreMarkedDue := by
  intro s t h i hc
  obtain ⟨rest, rfl | rfl | ⟨landed, rfl⟩ | ⟨u, free, hu, rfl⟩⟩ := step_does h
  · exact absurd hc (reportChanged_self (by cases i <;> first | rfl | trivial) rfl)
  · exact absurd hc (reportChanged_self (by cases i <;> first | rfl | trivial) rfl)
  · exact .inl (reset_itemDue i)
  · have hchanged : ReportChanged { s with pending := rest } u i := by
      have hu := (settled_calm free { s with pending := rest } u).reportChanged hc
      cases i <;> exact hu
    exact arbitrate_keepsDue free _ i (markRecords_due hu.orderly i hchanged)

end Sys2Proof.Machine

/-! The companions of a camera's state: what every change keeps, every step keeps (R41, R42, R43, R62, R72, R73, R96). -/

namespace Sys2Proof.Machine

variable {s0 s t u : State} {P Q : Set Cam} {c d : Cam}

/-- The companions of a camera's state, apart from what an event may break and makes good before its end. -/
structure MarksFit (k : Camera) : Prop where
  active : k.active.isSome = activeState k.state
  adoption : k.adoption.isSome = decide (k.state = .adopting)
  direct : k.direct.isSome = decide (k.state = .direct)
  marksClear : movingState k.state = false → k.halt = false ∧ k.abandon = false
  moving : k.state = .moving → k.halt = false ∧ k.abandon = false
  halting : k.state = .halting → k.halt = true
  halted : k.state = .halted → k.halt = true ∧ k.abandon = false
  reasonsEmpty : k.state ≠ .waiting → k.waitStop = false ∧ k.waitTally = false ∧ k.waitFloor = false
  queue : k.queue.length ≤ 4
  stack : k.stack.length ≤ 4

theorem companionsFit_iff {k : Camera} : CompanionsFit k ↔ MarksFit k ∧ AtRest k :=
  ⟨fun ⟨ha, had, hd, hm, hmo, hh, hha, hr, hrs, hi, hq, hst⟩ => ⟨⟨ha, had, hd, hm, hmo, hh, hha, hr, hq, hst⟩, hi, hrs⟩,
    fun ⟨⟨ha, had, hd, hm, hmo, hh, hha, hr, hq, hst⟩, hi, hrs⟩ => ⟨ha, had, hd, hm, hmo, hh, hha, hr, hrs, hi, hq, hst⟩⟩

theorem countWait_eq (k : Camera) : ∃ n, countWait k = { k with waitCount := n } := by
  unfold countWait
  split
  · exact ⟨_, rfl⟩
  · exact ⟨k.waitCount, rfl⟩

/-- A serviced tick changes a camera's motion alone. -/
theorem serviceCamera_fields (k : Camera) : ∃ rate p q sp, serviceCamera k = { k with rate := rate, p := p, q := q, setpoints := sp } := by
  unfold serviceCamera
  split
  · exact ⟨_, _, _, _, rfl⟩
  · exact ⟨_, _, _, _, rfl⟩
  · unfold stepDirect
    split
    · exact ⟨_, _, _, _, rfl⟩
    · exact ⟨k.rate, k.p, k.q, _, rfl⟩
  · exact ⟨_, _, _, _, rfl⟩

theorem serviceCamera_countWait (k : Camera) :
    ∃ rate p q sp n, serviceCamera (countWait k) = { k with rate := rate, p := p, q := q, setpoints := sp, waitCount := n } := by
  obtain ⟨n, hn⟩ := countWait_eq k
  obtain ⟨rate, p, q, sp, h⟩ := serviceCamera_fields (countWait k)
  exact ⟨rate, p, q, sp, n, by rw [h, hn]⟩

theorem stackAtBegin_length {k : Camera} (q : Cue) (h : k.stack.length ≤ 4) : (stackAtBegin q k).length ≤ 4 := by
  unfold stackAtBegin
  dsimp only
  split
  · exact (List.length_take_le _ _)
  · split
    · exact (List.length_tail ▸ Nat.sub_le _ _).trans h
    · exact h

/-- An adoption under way is that of a camera in ADOPTING. -/
theorem MarksFit.adopting {k : Camera} (h : MarksFit k) (ha : k.adoption.isSome = true) : k.state = .adopting :=
  of_decide_eq_true (h.adoption.symm.trans ha)

theorem MarksFit.inactive {k : Camera} (h : MarksFit k) (ha : activeState k.state = false) : k.active = none :=
  Option.isNone_iff_eq_none.mp (by rw [← Option.not_isSome, h.active, ha]; rfl)

theorem MarksFit.undirected {k : Camera} (h : MarksFit k) (hd : k.state ≠ .direct) : k.direct = none :=
  Option.isNone_iff_eq_none.mp (by rw [← Option.not_isSome, h.direct, decide_eq_false hd]; rfl)

theorem MarksFit.unadopting {k : Camera} (h : MarksFit k) (hd : k.state ≠ .adopting) : k.adoption = none :=
  Option.isNone_iff_eq_none.mp (by rw [← Option.not_isSome, h.adoption, decide_eq_false hd]; rfl)

/-- The state in which a camera with no cue stands: the marks clear, no reason, and what stands beside it as the state asks. -/
theorem MarksFit.of_inactive {k : Camera} (hs : activeState k.state = false) (ha : k.active = none)
    (had : k.adoption.isSome = decide (k.state = .adopting)) (hd : k.direct.isSome = decide (k.state = .direct))
    (hm : k.halt = false ∧ k.abandon = false) (hr : k.waitStop = false ∧ k.waitTally = false ∧ k.waitFloor = false)
    (hq : k.queue.length ≤ 4) (hst : k.stack.length ≤ 4) : MarksFit k where
  active := by rw [ha, hs]; rfl
  adoption := had
  direct := hd
  marksClear _ := hm
  moving _ := hm
  halting h := by rw [h] at hs; cases hs
  halted h := by rw [h] at hs; cases hs
  reasonsEmpty _ := hr
  queue := hq
  stack := hst

/-- A camera in a move under way. -/
theorem MarksFit.of_moving {k : Camera} (hs : movingState k.state = true) (ha : k.active.isSome = true) (had : k.adoption = none)
    (hd : k.direct = none) (hmo : k.state = .moving → k.halt = false ∧ k.abandon = false) (hh : k.state = .halting → k.halt = true)
    (hha : k.state = .halted → k.halt = true ∧ k.abandon = false) (hr : k.waitStop = false ∧ k.waitTally = false ∧ k.waitFloor = false)
    (hq : k.queue.length ≤ 4) (hst : k.stack.length ≤ 4) : MarksFit k where
  active := by rw [ha]; cases h : k.state <;> simp_all [movingState, activeState]
  adoption := by rw [had]; cases h : k.state <;> simp_all [movingState]
  direct := by rw [hd]; cases h : k.state <;> simp_all [movingState]
  marksClear h := by rw [hs] at h; cases h
  moving := hmo
  halting := hh
  halted := hha
  reasonsEmpty _ := hr
  queue := hq
  stack := hst

theorem active_of_moving {st : CamState} (h : movingState st = true) : activeState st = true := by cases st <;> first | rfl | cases h

theorem not_waiting_of_moving {st : CamState} (h : movingState st = true) : st ≠ .waiting ∧ st ≠ .adopting ∧ st ≠ .direct := by
  cases st <;> simp_all [movingState]

/-- Every change keeps the marks, reasons and companions of the state (R41, R42). -/
theorem CameraChange.marksFit {k0 k k' : Camera} {b : Bool} (hc : CameraChange k0 b k k') (h : MarksFit k) : MarksFit k' := by
  cases hc with
  | notes => exact ⟨h.active, h.adoption, h.direct, h.marksClear, h.moving, h.halting, h.halted, h.reasonsEmpty, h.queue, h.stack⟩
  | parks => exact ⟨h.active, h.adoption, h.direct, h.marksClear, h.moving, h.halting, h.halted, h.reasonsEmpty, h.queue, h.stack⟩
  | tunes => exact ⟨h.active, h.adoption, h.direct, h.marksClear, h.moving, h.halting, h.halted, h.reasonsEmpty, h.queue, h.stack⟩
  | waits => exact ⟨h.active, h.adoption, h.direct, h.marksClear, h.moving, h.halting, h.halted, h.reasonsEmpty, h.queue, h.stack⟩
  | queues _ l hl => exact ⟨h.active, h.adoption, h.direct, h.marksClear, h.moving, h.halting, h.halted, h.reasonsEmpty, hl, h.stack⟩
  | reads _ ad had => exact ⟨h.active, had.trans h.adoption, h.direct, h.marksClear, h.moving, h.halting, h.halted, h.reasonsEmpty, h.queue, h.stack⟩
  | claims _ r hw =>
    exact ⟨h.active, h.adoption, h.direct, h.marksClear, h.moving, h.halting, h.halted, fun hn => absurd hw hn, h.queue, h.stack⟩
  | reasons _ _ _ _ hw =>
    exact ⟨h.active, h.adoption, h.direct, h.marksClear, h.moving, h.halting, h.halted, fun hn => absurd hw hn, h.queue, h.stack⟩
  | unmarks _ h1 h2 =>
    exact ⟨h.active, h.adoption, h.direct, fun hm => ⟨rfl, (h.marksClear hm).2⟩, fun hm => ⟨rfl, (h.moving hm).2⟩, fun hm => absurd hm h1,
      fun hm => absurd hm h2, h.reasonsEmpty, h.queue, h.stack⟩
  | cueEnds _ ha hm =>
    have hst : k.state ≠ .adopting ∧ k.state ≠ .direct := by constructor <;> intro he <;> rw [he] at ha <;> cases ha
    exact .of_inactive rfl rfl (by simp [cueGone, h.unadopting hst.1]) (by simp [cueGone, h.undirected hst.2]) (h.marksClear hm)
      ⟨rfl, rfl, rfl⟩ h.queue h.stack
  | moveEnds _ hm =>
    obtain ⟨-, ha, hd⟩ := not_waiting_of_moving hm
    exact .of_inactive rfl rfl (by simp [marksGone, cueGone, h.unadopting ha]) (by simp [marksGone, cueGone, h.undirected hd]) ⟨rfl, rfl⟩
      ⟨rfl, rfl, rfl⟩ h.queue h.stack
  | begins _ hw =>
    have ha : k.active.isSome = true := by rw [h.active, hw]; rfl
    have hstack : (begun k).stack.length ≤ 4 := by
      dsimp only [begun]
      split
      · exact stackAtBegin_length _ h.stack
      · exact h.stack
    exact .of_moving rfl ha (h.unadopting (by rw [hw]; nofun)) (h.undirected (by rw [hw]; nofun)) (fun _ => ⟨rfl, rfl⟩) nofun nofun
      ⟨rfl, rfl, rfl⟩ h.queue hstack
  | plans _ req pl claim floor hf =>
    have hm := h.marksClear (by rw [hf]; rfl)
    exact ⟨by simp [writePlan, h.active, hf, activeState], by simp [writePlan, h.adoption, hf], by simp [writePlan, h.direct, hf],
      fun _ => hm, fun _ => hm, nofun, nofun, fun hn => absurd rfl hn, h.queue, h.stack⟩
  | takes _ q rest hi hq =>
    have hm := h.marksClear (by rw [hi]; rfl)
    have hrest : rest.length ≤ 4 := by have := h.queue; rw [hq] at this; exact (Nat.le_succ _).trans this
    exact ⟨rfl, by simp [h.adoption, hi], by simp [h.direct, hi], fun _ => hm, fun _ => hm, nofun, nofun,
      fun _ => h.reasonsEmpty (by rw [hi]; nofun), hrest, h.stack⟩
  | drives _ st hl a l r x hm hd =>
    obtain ⟨hw, had, hdi⟩ := not_waiting_of_moving hm
    have hact : k.active.isSome = true := by rw [h.active, active_of_moving hm]
    cases hd with
    | slows =>
      exact .of_moving rfl hact (h.unadopting had) (h.undirected hdi) nofun (fun _ => rfl) nofun (h.reasonsEmpty hw) h.queue h.stack
    | resumes hr =>
      exact .of_moving rfl hact (h.unadopting had) (h.undirected hdi) (fun _ => ⟨rfl, hr.elim (fun he => (h.halted he).2) id⟩) nofun nofun
        (h.reasonsEmpty hw) h.queue h.stack
    | stops hr =>
      exact .of_moving rfl hact (h.unadopting had) (h.undirected hdi) nofun nofun (fun _ => ⟨rfl, hr.elim (fun he => (h.moving he).2) id⟩)
        (h.reasonsEmpty hw) h.queue h.stack
    | rests he ha =>
      exact .of_moving rfl hact (h.unadopting had) (h.undirected hdi) nofun nofun (fun _ => ⟨h.halting he, ha⟩) (h.reasonsEmpty hw) h.queue
        h.stack
  | directs _ hi =>
    exact .of_inactive rfl (h.inactive (by rw [hi]; rfl)) (by simp [h.adoption, hi]) rfl (h.marksClear (by rw [hi]; rfl))
      (h.reasonsEmpty (by rw [hi]; nofun)) h.queue h.stack
  | releases _ hd =>
    exact .of_inactive rfl (h.inactive (by rw [hd]; rfl)) (by simp [h.adoption, hd]) rfl (h.marksClear (by rw [hd]; rfl))
      (h.reasonsEmpty (by rw [hd]; nofun)) h.queue h.stack
  | steers _ a v hd =>
    exact ⟨h.active, h.adoption, Option.isSome_map.trans h.direct, h.marksClear, h.moving, h.halting, h.halted, h.reasonsEmpty, h.queue, h.stack⟩
  | enables _ ad ho =>
    exact .of_inactive rfl (h.inactive (by rw [ho]; rfl)) rfl (by simp [h.direct, ho]) (h.marksClear (by rw [ho]; rfl))
      (h.reasonsEmpty (by rw [ho]; nofun)) h.queue h.stack
  | leaves _ ha =>
    have had : k.state = .adopting := ha.elim id h.adopting
    exact .of_inactive rfl (h.inactive (by rw [had]; rfl)) rfl (by simp [h.direct, had]) (h.marksClear (by rw [had]; rfl))
      (h.reasonsEmpty (by rw [had]; nofun)) (Nat.zero_le _) h.stack
  | adopts _ t l o held _ ha =>
    exact .of_inactive rfl (h.inactive (by rw [h.adopting ha]; rfl)) rfl rfl ⟨rfl, rfl⟩ ⟨rfl, rfl, rfl⟩ h.queue (Nat.zero_le _)
  | serves =>
    obtain ⟨rate, p, q, sp, n, he⟩ := serviceCamera_countWait k
    rw [he]
    exact ⟨h.active, h.adoption, h.direct, h.marksClear, h.moving, h.halting, h.halted, h.reasonsEmpty, h.queue, h.stack⟩

theorem disabledCamera_marksFit {k : Camera} (he : enabledState k.state = true) (h : MarksFit k) : MarksFit (disabledCamera k) :=
  .of_inactive rfl rfl (by simp [disabledCamera, h.unadopting (fun ha => by rw [ha] at he; cases he)]) rfl ⟨rfl, rfl⟩ ⟨rfl, rfl, rfl⟩
    (Nat.zero_le _) (Nat.zero_le _)

/-- A change that does not say otherwise leaves a camera at rest (R42, R48). -/
theorem CameraChange.atRest {k0 k k' : Camera} (hc : CameraChange k0 false k k') (h : MarksFit k) (hr : AtRest k) : AtRest k' := by
  generalize hb : false = b at hc
  cases hc with
  | cueEnds | moveEnds | claims | plans | releases | adopts => cases hb
  | notes | parks | tunes | unmarks | reads | waits => exact hr
  | begins => exact atRest_of_state nofun nofun
  | takes => exact atRest_of_state nofun nofun
  | directs => exact atRest_of_state nofun nofun
  | enables => exact atRest_of_state nofun nofun
  | leaves => exact atRest_of_state nofun nofun
  | steers => exact hr
  | drives _ st hl a l r x hm hd => cases hd <;> exact atRest_of_state nofun nofun
  | queues _ l hl =>
    refine ⟨fun hi => ?_, hr.2⟩
    by_contra hne
    have hidle : k.state = .idle := hi
    exact of_decide_eq_false hb.symm ⟨h.inactive (by rw [hidle]; rfl), hi, hne⟩
  | reasons _ b st ta hw hkeep =>
    obtain ⟨hs, ht⟩ := hkeep hb.symm
    refine ⟨fun hi => ?_, fun _ => ?_⟩
    · have hidle : k.state = .idle := hi
      rw [hw] at hidle; cases hidle
    · exact (hr.2 hw).imp hs (Or.imp_left ht)
  | serves =>
    obtain ⟨rate, p, q, sp, n, he⟩ := serviceCamera_countWait k
    rw [he]
    exact hr

/-- The marks fit every camera's state, and the cameras outside P are at rest. -/
def RestsOutside (a : Set Cam × State) : Prop := (∀ c, MarksFit (a.2.cam c)) ∧ ∀ c, c ∉ a.1 → AtRest (a.2.cam c)

theorem Change.restsOutside {a b : Set Cam × State} (hc : Change s0 a b) (h : RestsOutside a) : RestsOutside b := by
  refine ⟨hc.cameras (J := fun _ => MarksFit) (fun _ _ _ _ => CameraChange.marksFit) (fun _ _ => disabledCamera_marksFit) h.1, ?_⟩
  obtain ⟨hfit, hrest⟩ := h
  cases hc with
  | cam P s t c b k hk hcams =>
    intro d hd
    rw [cam_of_set hcams]
    split
    · next he =>
      subst he
      cases b with
      | true => exact absurd (Set.mem_insert d P) hd
      | false => exact hk.atRest (hfit d) (hrest d hd)
    · refine hrest d fun hP => hd ?_
      split
      · exact Set.mem_insert_of_mem c hP
      · exact hP
  | all P s t hcams =>
    intro d hd
    rcases hcams d with he | he
    · exact he ▸ hrest d hd
    · exact he.atRest (hfit d) (hrest d hd)
  | disable P s t c he hcams =>
    intro d hd
    rw [cam_of_set hcams]
    split
    · exact atRest_of_state nofun nofun
    · exact hrest d hd
  | zone P s t hcams => exact fun d hd => State.cam_congr hcams d ▸ hrest d hd
  | rest P Q s hPQ =>
    intro d hd
    by_cases hP : d ∈ P
    · exact (hPQ d hP).resolve_left hd
    · exact hrest d hP

/-- An event leaves every camera's companions fitting its state. -/
theorem Course.companions (h : Course s0 ∅ s ∅ t) (hs : CompanionsHold s) : CompanionsHold t := by
  have hr := h.keeps (I := RestsOutside) (fun _ _ => Change.restsOutside)
    ⟨fun c => (companionsFit_iff.mp (hs c)).1, fun c _ => (companionsFit_iff.mp (hs c)).2⟩
  exact fun c => companionsFit_iff.mpr ⟨hr.1 c, hr.2 c (Set.notMem_empty c)⟩

/-- Settles O53: the marks are kept by every elementary change, and an event puts every camera at rest again that it took from it. -/
theorem stepKeepsCompanions : Obligations.StepKeepsCompanions := fun s t h =>
  step_keeps (I := CompanionsHold) (fun _ _ hs => hs) (fun _ _ _ c => reset_cam c ▸ companionsFit_reset)
    (fun s u free hs hu c => by rw [(settled_calm free s u).cam]; exact hu.companions hs c) h

end Sys2Proof.Machine

/-! The soft limits: what every change keeps, every step keeps (R6, R136, R141). -/

namespace Sys2Proof.Machine

variable {s0 s t u : State} {P Q : Set Cam} {c d : Cam} {k k0 k' : Camera}

/-! Values within limits -/

theorem clampInt_mem {lo hi : Int} (h : lo ≤ hi) (v : Int) : lo ≤ clampInt lo hi v ∧ clampInt lo hi v ≤ hi := by
  unfold clampInt
  split
  · exact ⟨le_rfl, h⟩
  · split
    · exact ⟨h, le_rfl⟩
    · omega

theorem mem_of_clampInt_eq {lo hi v : Int} (h : clampInt lo hi v = v) : lo ≤ v ∧ v ≤ hi := by
  unfold clampInt at h
  split at h
  · omega
  · split at h <;> omega

theorem getLsbD_one_shiftLeft (a b : Axis) : (1#7 <<< b.val).getLsbD a.val = decide (b = a) := by revert a b; decide

theorem getLsbD_foldl_mask (f : Axis → Bool) (l : List Axis) (m : BitVec 7) (a : Axis) :
    (l.foldl (fun m b => if f b then m ||| (1#7 <<< b.val) else m) m).getLsbD a.val =
      (m.getLsbD a.val || l.any fun b => decide (b = a) && f b) := by
  induction l generalizing m with
  | nil => simp
  | cons b l ih =>
    rw [List.foldl_cons, ih, List.any_cons]
    cases hf : f b
    · simp
    · rw [if_pos rfl, BitVec.getLsbD_or, getLsbD_one_shiftLeft, Bool.and_true, Bool.or_assoc]

/-- An axis is in the mask of the axes with a property exactly when it has the property. -/
theorem getLsbD_maskOf (f : Axis → Bool) (a : Axis) : (maskOf f).getLsbD a.val = f a := by
  rw [maskOf, getLsbD_foldl_mask]
  cases hf : f a <;> simp [hf]

/-- An adopted position is within the limits of each present axis (R46 check 4). -/
theorem adopted_withinLimits {t : List (Option (BitVec 16))} (h : outOfLimits t = 0) {a : Axis} (ha : inMask (adoptMask t) a = true) :
    (pendingConfig t).axes[a].min ≤ (adoptedPositions t)[a] ∧ (adoptedPositions t)[a] ≤ (pendingConfig t).axes[a].max := by
  have hbit := getLsbD_maskOf (fun a => inMask (adoptMask t) a &&
    (clampInt (pendingConfig t).axes[a].min (pendingConfig t).axes[a].max (adoptedPositions t)[a] != (adoptedPositions t)[a])) a
  rw [show maskOf _ = outOfLimits t from rfl, h] at hbit
  simp only [ha, Bool.true_and] at hbit
  exact mem_of_clampInt_eq (by simpa using hbit.symm)

/-! Plans -/

theorem PlanFits.scaledPlan (h : PlanFits k) : k.plan.Scaled :=
  ⟨by have := h.ramp; omega, h.scaled.1, h.scaled.2, h.denominator⟩

theorem planMove_target {cfg : CamConfig} {o : Positions} {req : MoveRequest} {pl : Plan} (h : planMove cfg o req = .plan pl) {a : Axis}
    (ha : inMask cfg.mask a = true) :
    pl.origin[a] = o[a] ∧ (pl.target[a] = o[a] ∨ pl.target[a] = clampInt cfg.axes[a].min cfg.axes[a].max req.target[a]) := by
  obtain ⟨-, -, rfl⟩ := planMove_eq_plan_iff.mp h
  simp only [planOf, planOrigin, planTarget, getElem_positionsOf, ha, if_true]
  refine ⟨trivial, ?_⟩
  split
  · exact .inl rfl
  · exact .inr rfl

/-- What the planner makes fits, when the camera stands within its limits (R6, R19, R23). -/
theorem planMove_fits {req : MoveRequest} {pl : Plan} (h : planMove k.cfg k.setpoints req = .plan pl)
    (hsp : ∀ a : Axis, inMask k.cfg.mask a = true → withinLimits k a k.setpoints[a])
    (hplan : k'.plan = pl) (hcfg : k'.cfg = k.cfg) (hp : k'.p = 0) : PlanFits k' := by
  have hs := planMove_scaled h
  subst hplan
  refine ⟨(planMove_frames h).1, by have := hs.ramp; omega, ⟨hs.n', hs.r'⟩, hs.k, planMove_delta h, fun a ha => ?_, hp ▸ Nat.zero_le _⟩
  rw [hcfg] at ha
  obtain ⟨ho, ht⟩ := planMove_target h ha
  have hin := hsp a ha
  simp only [withinLimits, hcfg, ho] at hin ⊢
  refine ⟨hin, ?_⟩
  rcases ht with ht | ht
  · rw [ht]; exact hin
  · rw [ht]; exact clampInt_mem (hin.1.trans hin.2) _

/-- A camera on its way stands within its limits (R27). -/
theorem PlanFits.movePositions_within (h : PlanFits k) {p : Nat} (hp : p ≤ k.plan.n') {a : Axis} (ha : inMask k.cfg.mask a = true) :
    withinLimits k a (movePositions k.plan p)[a] := by
  obtain ⟨⟨ho, ho'⟩, ⟨ht, ht'⟩⟩ := h.limits a ha
  have hb := axisPosition_between (h.travel a) (m := moveNum k.plan p) le_rfl (h.scaledPlan.moveNum_le_k hp)
  rw [withinLimits, getElem_movePositions]
  rcases le_total k.plan.origin[a] k.plan.target[a] with hle | hle
  · obtain ⟨h1, -, h2⟩ := hb.1 hle
    exact ⟨ho.trans h1, h2.trans ht'⟩
  · obtain ⟨h1, -, h2⟩ := hb.2 hle
    exact ⟨ht.trans h1, h2.trans ho'⟩

/-- A plan fits another camera with the same plan, config and a progress within it. -/
theorem PlanFits.congr (h : PlanFits k) (hplan : k'.plan = k.plan) (hcfg : k'.cfg = k.cfg) (hp : k'.p ≤ k.plan.n') : PlanFits k' := by
  obtain ⟨hd, hr, hs, hk, ht, hl, -⟩ := h
  refine ⟨?_, ?_, ?_, ?_, ?_, ?_, ?_⟩ <;> simp only [withinLimits, hplan, hcfg] at hl ⊢ <;> assumption

/-! A camera's limits -/

/-- A camera with the same motion, in a state that asks no more. -/
theorem LimitsFit.congr (h : LimitsFit k) (hsp : k'.setpoints = k.setpoints) (hcfg : k'.cfg = k.cfg) (hplan : k'.plan = k.plan)
    (hp : k'.p = k.p) (he : enabledState k'.state = true → enabledState k.state = true)
    (hm : k'.state = .waiting ∨ movingState k'.state = true → k.state = .waiting ∨ movingState k.state = true)
    (hd : ∀ t, k'.direct = some t → k.direct = some t ∧ (k.state = .direct → k'.state = .direct))
    (ha : k'.adoption.isSome = true → k'.state = .adopting) : LimitsFit k' where
  setpoints hen a hin := by
    rw [hcfg] at hin
    simpa only [withinLimits, hsp, hcfg] using h.setpoints (he hen) a hin
  plan hw := (h.plan (hm hw)).congr hplan hcfg (hp ▸ (h.plan (hm hw)).progress)
  direct t ht := by
    obtain ⟨hdir, hst⟩ := hd t ht
    obtain ⟨hstate, hlim⟩ := h.direct t hdir
    exact ⟨hst hstate, fun a hin => by rw [hcfg] at hin; simpa only [withinLimits, hcfg] using hlim a hin⟩
  adoption := ha

/-- The axis's step toward its target stays within the limits that both keep (R141). -/
theorem stepToward_mem {lo hi pos target step : Int} (hp : lo ≤ pos ∧ pos ≤ hi) (ht : lo ≤ target ∧ target ≤ hi) (hs : 0 ≤ step) :
    lo ≤ stepToward pos target step ∧ stepToward pos target step ≤ hi := by
  unfold stepToward
  split
  · exact ht
  · split <;> omega

theorem directStep_nonneg (k : Camera) (a : Axis) : 0 ≤ directStep k a := by
  unfold directStep
  split
  · exact le_rfl
  · split <;> exact Int.natCast_nonneg _

theorem advanceMove_limitsFit (h : LimitsFit k) (hm : movingState k.state = true) (hd : k.direct = none) : LimitsFit (advanceMove k) := by
  have hplan := h.plan (.inr hm)
  have hprogress : (advanceMove k).p ≤ k.plan.n' := Nat.min_le_right _ _
  refine ⟨fun _ a ha => hplan.movePositions_within hprogress ha, fun _ => hplan.congr rfl rfl hprogress, fun t ht => ?_, h.adoption⟩
  have hdir : k.direct = some t := ht
  rw [hd] at hdir; cases hdir

theorem stepDirect_limitsFit (h : LimitsFit k) (hs : k.state = .direct) : LimitsFit (stepDirect k) := by
  unfold stepDirect
  split
  · exact h
  · next t ht =>
    refine ⟨fun _ a ha => ?_, fun hw => ?_, h.direct, h.adoption⟩
    · have hin : inMask k.cfg.mask a = true := ha
      simp only [withinLimits, getElem_positionsOf, hin, if_true]
      exact stepToward_mem (h.setpoints (by rw [hs]; rfl) a ha) ((h.direct t ht).2 a ha) (directStep_nonneg k a)
    · have hwait : k.state = .waiting ∨ movingState k.state = true := hw
      rw [hs] at hwait
      rcases hwait with hwait | hwait <;> cases hwait

theorem serviceCamera_limitsFit (h : LimitsFit k) (hm : MarksFit k) : LimitsFit (serviceCamera k) := by
  unfold serviceCamera
  split
  · next hs => exact advanceMove_limitsFit h (by rw [hs]; rfl) (hm.undirected (by rw [hs]; nofun))
  · next hs => exact advanceMove_limitsFit h (by rw [hs]; rfl) (hm.undirected (by rw [hs]; nofun))
  · next hs => exact stepDirect_limitsFit h hs
  · exact h

theorem enabled_of_active {st : CamState} (h : activeState st = true) : enabledState st = true := by cases st <;> first | rfl | cases h

/-- A state in which no move is planned. -/
theorem not_planned {st : CamState} (h : st = .idle ∨ st = .fetching ∨ st = .direct ∨ st = .offline ∨ st = .adopting) :
    ¬(st = .waiting ∨ movingState st = true) := by
  rcases h with rfl | rfl | rfl | rfl | rfl <;> simp [movingState]

/-- Every change keeps a camera within its limits. -/
theorem CameraChange.limitsFit {b : Bool} (hc : CameraChange k0 b k k') (hm : MarksFit k) (h : LimitsFit k) : LimitsFit k' := by
  have hnone : k.state ≠ .direct → ∀ t, k.direct = some t → ¬True := fun hn t ht => by rw [hm.undirected hn] at ht; cases ht
  cases hc with
  | notes | parks | tunes | waits | queues | claims | reasons | unmarks =>
    exact h.congr rfl rfl rfl rfl id id (fun t ht => ⟨ht, id⟩) h.adoption
  | reads _ ad had => exact h.congr rfl rfl rfl rfl id id (fun t ht => ⟨ht, id⟩) fun ha => h.adoption (had ▸ ha)
  | cueEnds _ ha =>
    have hst : k.state ≠ .adopting ∧ k.state ≠ .direct := by constructor <;> intro he <;> rw [he] at ha <;> cases ha
    exact h.congr rfl rfl rfl rfl (fun _ => enabled_of_active ha) (fun hw => absurd hw (not_planned (.inl rfl)))
      (fun t ht => absurd trivial (hnone hst.2 t ht)) fun had => absurd (h.adoption had) hst.1
  | moveEnds _ hmo =>
    obtain ⟨-, had, hd⟩ := not_waiting_of_moving hmo
    exact h.congr rfl rfl rfl rfl (fun _ => enabled_of_active (active_of_moving hmo)) (fun hw => absurd hw (not_planned (.inl rfl)))
      (fun t ht => absurd trivial (hnone hd t ht)) fun ha => absurd (h.adoption ha) had
  | begins _ hw =>
    have hen : enabledState k.state = true := by rw [hw]; rfl
    exact ⟨fun _ => h.setpoints hen, fun _ => (h.plan (.inl hw)).congr rfl rfl (Nat.zero_le _),
      fun t ht => absurd trivial (hnone (by rw [hw]; nofun) t ht), fun ha => absurd (h.adoption ha) (by rw [hw]; nofun)⟩
  | plans _ req pl claim floor hf hpl =>
    have hen : enabledState k.state = true := by rw [hf]; rfl
    exact ⟨fun _ => h.setpoints hen, fun _ => planMove_fits hpl (h.setpoints hen) rfl rfl rfl,
      fun t ht => absurd trivial (hnone (by rw [hf]; nofun) t ht), fun ha => absurd (h.adoption ha) (by rw [hf]; nofun)⟩
  | takes _ q rest hi =>
    exact h.congr rfl rfl rfl rfl (fun _ => by rw [hi]; rfl) (fun hw => absurd hw (not_planned (.inr (.inl rfl))))
      (fun t ht => absurd trivial (hnone (by rw [hi]; nofun) t ht)) fun ha => absurd (h.adoption ha) (by rw [hi]; nofun)
  | drives _ st hl a l r x hmo hd =>
    obtain ⟨-, had, hdi⟩ := not_waiting_of_moving hmo
    exact h.congr rfl rfl rfl rfl (fun _ => enabled_of_active (active_of_moving hmo)) (fun _ => .inr hmo)
      (fun t ht => absurd trivial (hnone hdi t ht)) fun ha => absurd (h.adoption ha) had
  | directs _ hi =>
    have hsp := h.setpoints (by rw [hi]; rfl)
    exact ⟨fun _ => hsp, fun hw => absurd hw (not_planned (.inr (.inr (.inl rfl)))), fun t ht => ⟨rfl, Option.some.inj ht ▸ hsp⟩,
      fun ha => absurd (h.adoption ha) (by rw [hi]; nofun)⟩
  | releases _ hd =>
    exact ⟨fun _ => h.setpoints (by rw [hd]; rfl), fun hw => absurd hw (not_planned (.inl rfl)), nofun,
      fun ha => absurd (h.adoption ha) (by rw [hd]; nofun)⟩
  | steers _ a v hd hin =>
    have hsp := h.setpoints (by rw [hd]; rfl)
    have hno : ¬(k.state = .waiting ∨ movingState k.state = true) := not_planned (.inr (.inr (.inl hd)))
    refine ⟨h.setpoints, fun hw => absurd hw hno, fun t ht => ⟨hd, fun b hb => ?_⟩, h.adoption⟩
    obtain ⟨t', ht', rfl⟩ := Option.map_eq_some_iff.mp ht
    simp only [withinLimits, Fin.getElem_fin, Vector.getElem_set]
    split
    · next he =>
      have hab : a = b := Fin.ext he
      subst hab
      exact clampInt_mem ((hsp a hin).1.trans (hsp a hin).2) v
    · exact (h.direct t' ht').2 b hb
  | enables _ ad ho =>
    exact ⟨nofun, fun hw => absurd hw (not_planned (.inr (.inr (.inr (.inr rfl))))),
      fun t ht => absurd trivial (hnone (by rw [ho]; nofun) t ht), fun _ => rfl⟩
  | leaves _ ha =>
    have had : k.state = .adopting := ha.elim id hm.adopting
    exact ⟨nofun, fun hw => absurd hw (not_planned (.inr (.inr (.inr (.inl rfl))))),
      fun t ht => absurd trivial (hnone (by rw [had]; nofun) t ht), nofun⟩
  | adopts _ t l o held _ _ hlim =>
    exact ⟨fun _ a ha => adopted_withinLimits hlim ha, fun hw => absurd hw (not_planned (.inl rfl)), nofun, nofun⟩
  | serves =>
    obtain ⟨n, hn⟩ := countWait_eq k
    rw [hn]
    exact serviceCamera_limitsFit (h.congr rfl rfl rfl rfl id id (fun t ht => ⟨ht, id⟩) h.adoption)
      ⟨hm.active, hm.adoption, hm.direct, hm.marksClear, hm.moving, hm.halting, hm.halted, hm.reasonsEmpty, hm.queue, hm.stack⟩

theorem disabledCamera_limitsFit (he : enabledState k.state = true) (h : LimitsFit k) : LimitsFit (disabledCamera k) :=
  ⟨nofun, fun hw => absurd hw (not_planned (.inr (.inr (.inr (.inl rfl))))), nofun, fun ha => by
    rw [h.adoption ha] at he; cases he⟩

/-- An event leaves every camera within its limits. -/
theorem Course.limits (h : Course s0 P s Q t) (hm : ∀ c, MarksFit (s.cam c)) (hl : LimitsHold s) : LimitsHold t := fun c =>
  (h.cameras (J := fun _ k => MarksFit k ∧ LimitsFit k) (fun _ _ _ _ hc hk => ⟨hc.marksFit hk.1, hc.limitsFit hk.1 hk.2⟩)
    (fun _ _ he hk => ⟨disabledCamera_marksFit he hk.1, disabledCamera_limitsFit he hk.2⟩) (fun c => ⟨hm c, hl c⟩) c).2

/-- Settles O54: with its marks fitting its state, every elementary change keeps a camera within its limits. -/
theorem stepKeepsLimits : Obligations.StepKeepsLimits := fun s t h hc hl =>
  (step_keeps (I := fun s => CompanionsHold s ∧ LimitsHold s) (fun _ _ hs => hs)
    (fun _ _ _ => ⟨fun c => reset_cam c ▸ companionsFit_reset, fun c => reset_cam c ▸ limitsFit_reset⟩)
    (fun s u free ⟨hsc, hsl⟩ hu => by
      have hcams : ∀ c, (arbitrate free (markRecords s u)).cam c = u.cam c := (settled_calm free s u).cam
      exact ⟨fun c => hcams c ▸ hu.companions hsc c, fun c => hcams c ▸ hu.limits (fun c => (companionsFit_iff.mp (hsc c)).1) hsl c⟩) h
    ⟨hc, hl⟩).2

end Sys2Proof.Machine

/-! The pace: no step moves an axis by more than its off-air speed (R7, R22, R27, R33, R39, R141). -/

namespace Sys2Proof.Machine

variable {s0 s t u : State} {P Q : Set Cam} {c d : Cam} {k k0 k' : Camera}

/-! The numerator's slope -/

/-- The most by which the numerator of a plan rises with P (R26). -/
def moveSlope (pl : Plan) : Nat := if pl.r = 0 then 1 else 2 * pl.r'

namespace Plan.Scaled

variable {pl : Plan} (h : pl.Scaled)
include h

/-- The denominator is the slope times the duration past the ramp (R23). -/
theorem k_eq_slope : pl.k = moveSlope pl * (256 * (pl.n - pl.r)) := by
  have hn := h.n'
  have hr := h.r'
  rcases Nat.eq_zero_or_pos pl.r with h0 | hpos
  · rw [h.k_of_linear h0, moveSlope, if_pos h0, hn, h0]; omega
  · rw [h.k_of_ramped hpos, moveSlope, if_neg hpos.ne', hn, hr, ← Nat.mul_sub]

theorem moveNum_succ_le (p : Nat) : moveNum pl (p + 1) ≤ moveNum pl p + moveSlope pl := by
  rcases Nat.eq_zero_or_pos pl.r with hr | hr
  · rw [moveNum_linear hr, moveNum_linear hr, moveSlope, if_pos hr]
  · rw [moveSlope, if_neg hr.ne']
    by_cases hrise : p + 1 ≤ pl.r'
    · rw [moveNum_rising (p := p + 1) hr hrise, moveNum_rising (p := p) hr (by omega)]
      calc (p + 1) ^ 2 = p ^ 2 + (2 * p + 1) := by ring
        _ ≤ p ^ 2 + 2 * pl.r' := by omega
    · by_cases hsteady : p + 1 ≤ pl.n' - pl.r'
      · rw [moveNum_steady (p := p + 1) hr (by omega) hsteady, moveNum_steady (p := p) hr (by omega) (by omega)]
        calc pl.r' * (2 * (p + 1) - pl.r') = pl.r' * ((2 * p - pl.r') + 2) := by congr 1; omega
          _ = pl.r' * (2 * p - pl.r') + 2 * pl.r' := by ring
          _ ≤ _ := le_rfl
      · rw [h.moveNum_falling hr (by omega), h.moveNum_falling hr (by omega)]
        rcases Nat.lt_or_ge p pl.n' with hp | hp
        · obtain ⟨m, hm⟩ := Nat.exists_eq_add_of_lt hp
          have hsq : (m + 1) ^ 2 = m ^ 2 + (2 * m + 1) := by ring
          rw [show pl.n' - (p + 1) = m by omega, show pl.n' - p = m + 1 by omega, hsq]
          have hm : m + 1 ≤ pl.r' := by omega
          generalize m ^ 2 = x
          omega
        · rw [show pl.n' - (p + 1) = 0 by omega, show pl.n' - p = 0 by omega]
          exact Nat.le_add_right _ _

theorem moveNum_add_le (p j : Nat) : moveNum pl (p + j) ≤ moveNum pl p + moveSlope pl * j := by
  induction j with
  | zero => exact Nat.le_add_right _ _
  | succ j ih =>
    calc moveNum pl (p + j + 1) ≤ moveNum pl (p + j) + moveSlope pl := h.moveNum_succ_le _
      _ ≤ moveNum pl p + moveSlope pl * j + moveSlope pl := Nat.add_le_add_right ih _
      _ = moveNum pl p + moveSlope pl * (j + 1) := by ring

/-- A tick's progress of at most 256 moves an axis by at most v, when its travel takes no more than v for each frame past the ramp. -/
theorem share_add_le (hk : 0 < pl.k) {d v : Nat} (hd : d ≤ v * (pl.n - pl.r)) {p j : Nat} (hj : j ≤ 256) :
    d * moveNum pl (p + j) / pl.k ≤ d * moveNum pl p / pl.k + v := by
  have hnum : d * moveNum pl (p + j) ≤ d * moveNum pl p + v * pl.k := calc
    d * moveNum pl (p + j) ≤ d * (moveNum pl p + moveSlope pl * 256) :=
      Nat.mul_le_mul_left d ((h.moveNum_add_le p j).trans (Nat.add_le_add_left (Nat.mul_le_mul_left _ hj) _))
    _ = d * moveNum pl p + d * (moveSlope pl * 256) := Nat.mul_add ..
    _ ≤ d * moveNum pl p + v * (pl.n - pl.r) * (moveSlope pl * 256) := Nat.add_le_add_left (Nat.mul_le_mul_right _ hd) _
    _ = d * moveNum pl p + v * pl.k := by rw [h.k_eq_slope]; ring
  calc d * moveNum pl (p + j) / pl.k ≤ (d * moveNum pl p + v * pl.k) / pl.k := Nat.div_le_div_right hnum
    _ = d * moveNum pl p / pl.k + v := Nat.add_mul_div_right _ _ hk

end Plan.Scaled

/-- Two points of the progress a tick apart are at most v counts apart. -/
theorem axisPosition_pace {o d : Int} {m m' k v : Nat} (hm : d.natAbs * m / k ≤ d.natAbs * m' / k)
    (h : d.natAbs * m' / k ≤ d.natAbs * m / k + v) : (axisPosition o d m' k - axisPosition o d m k).natAbs ≤ v := by
  rcases lt_or_ge d 0 with hneg | hpos
  · simp only [axisPosition_of_neg hneg]
    generalize d.natAbs * m / k = x at hm h ⊢
    generalize d.natAbs * m' / k = y at hm h ⊢
    omega
  · simp only [axisPosition_of_nonneg hpos]
    generalize d.natAbs * m / k = x at hm h ⊢
    generalize d.natAbs * m' / k = y at hm h ⊢
    omega

/-! A tick -/

theorem slewRate_le_of_le {step rate rt n : Nat} (hr : rate ≤ n) (ht : rt ≤ n) : slewRate step rate rt ≤ n := by
  unfold slewRate
  split
  · exact (Nat.min_le_right _ _).trans ht
  · split
    · exact Nat.max_le.mpr ⟨(Nat.sub_le _ _).trans hr, ht⟩
    · exact hr

/-- An axis under way keeps its off-air speed at a tick (R33, R39). -/
theorem advanceMove_pace (hl : LimitsFit k) (hp : PaceFits k) (hr : CameraRanges k) (hm : movingState k.state = true) {a : Axis}
    (ha : inMask k.cfg.mask a = true) : ((advanceMove k).setpoints[a] - k.setpoints[a]).natAbs ≤ k.cfg.axes[a].voff := by
  have hplan := hl.plan (.inr hm)
  have hs := hplan.scaledPlan
  have hk : 0 < k.plan.k := Nat.lt_of_lt_of_le (by decide) (hs.le_k hplan.duration)
  obtain ⟨htravel, hsp⟩ := hp.travel (.inr hm) a ha
  obtain ⟨j, hj, hadv⟩ : ∃ j, j ≤ 256 ∧ (advanceMove k).p = k.p + j := by
    refine ⟨(advanceMove k).p - k.p, ?_, ?_⟩
    · have hrate := slewRate_le_of_le (step := k.cfg.slew) hr.rate hr.rt
      have hmin : (advanceMove k).p ≤ k.p + slewRate k.cfg.slew k.rate k.rt := Nat.min_le_left _ _
      omega
    · have hmin : k.p ≤ (advanceMove k).p := Nat.le_min.mpr ⟨Nat.le_add_right _ _, hplan.progress⟩
      omega
  have hto : (advanceMove k).setpoints = movePositions k.plan (k.p + j) := hadv ▸ rfl
  rw [hto, hsp, getElem_movePositions, getElem_movePositions]
  exact axisPosition_pace (share_mono _ (hs.moveNum_mono (Nat.le_add_right _ _)) _) (hs.share_add_le hk htravel hj)

theorem stepToward_pace (pos target step : Int) : (stepToward pos target step - pos).natAbs ≤ step.natAbs := by
  unfold stepToward
  split
  · assumption
  · split <;> omega

theorem directStep_le {a : Axis} (h : k.cfg.axes[a].von ≤ k.cfg.axes[a].voff) : (directStep k a).natAbs ≤ k.cfg.axes[a].voff := by
  unfold directStep
  split
  · exact Nat.zero_le _
  · split
    · exact h
    · exact le_rfl

/-- An axis in DIRECT keeps its off-air speed at a tick (R141). -/
theorem stepDirect_pace (hp : PaceFits k) (he : enabledState k.state = true) {a : Axis} (ha : inMask k.cfg.mask a = true) :
    ((stepDirect k).setpoints[a] - k.setpoints[a]).natAbs ≤ k.cfg.axes[a].voff := by
  unfold stepDirect
  split
  · simp
  · simp only [getElem_positionsOf, ha, if_true]
    exact (stepToward_pace ..).trans (directStep_le (hp.speeds he a ha))

theorem serviceCamera_pace (hl : LimitsFit k) (hp : PaceFits k) (hr : CameraRanges k) (he : enabledState k.state = true) {a : Axis}
    (ha : inMask k.cfg.mask a = true) : ((serviceCamera k).setpoints[a] - k.setpoints[a]).natAbs ≤ k.cfg.axes[a].voff := by
  unfold serviceCamera
  split
  · next hs => exact advanceMove_pace hl hp hr (by rw [hs]; rfl) ha
  · next hs => exact advanceMove_pace hl hp hr (by rw [hs]; rfl) ha
  · exact stepDirect_pace hp he ha
  · simp

/-! What every change keeps -/

/-- The travel of a plan keeps the off-air speed in the frames past the ramp (R22). -/
theorem planMove_travel {req : MoveRequest} {pl : Plan} {cfg : CamConfig} {o : Positions} (h : planMove cfg o req = .plan pl) {a : Axis}
    (ha : inMask cfg.mask a = true) (hv : cfg.axes[a].von ≤ cfg.axes[a].voff) :
    pl.delta[a].natAbs ≤ cfg.axes[a].voff * (pl.n - pl.r) := by
  have hramp : pl.r ≤ req.ramp := planMove_ramp h ▸ Nat.min_le_left _ _
  obtain ⟨-, -, rfl⟩ := planMove_eq_plan_iff.mp h
  by_cases hd : (planDelta cfg o req)[a] = 0
  · simp only [planOf, hd]; exact Nat.zero_le _
  · have hneed := need_le_planFrames (req := req) ha hd
    have hpos := moveSpeed_pos_of_travel ha hd
    have hspeed : moveSpeed cfg req.onAir a ≤ cfg.axes[a].voff := by
      unfold moveSpeed
      split
      · exact hv
      · exact le_rfl
    have hceil : (planDelta cfg o req)[a].natAbs ≤ moveSpeed cfg req.onAir a * ceilDiv (planDelta cfg o req)[a].natAbs (moveSpeed cfg req.onAir a) := by
      unfold ceilDiv
      generalize (planDelta cfg o req)[a].natAbs = x
      have hlt := Nat.lt_mul_div_succ (x + moveSpeed cfg req.onAir a - 1) hpos
      rw [Nat.mul_succ] at hlt
      omega
    exact hceil.trans (Nat.mul_le_mul hspeed (by simp only [planOf] at hramp ⊢; omega))

theorem axisConfig_speeds (lo hi von voff : Int) : (axisConfigOf lo hi von voff).von ≤ (axisConfigOf lo hi von voff).voff := by
  unfold axisConfigOf
  exact Nat.min_le_right _ _

/-- The applied on-air speeds are at most the off-air speeds (R7). -/
theorem pendingConfig_speeds (t : List (Option (BitVec 16))) (a : Axis) : (pendingConfig t).axes[a].von ≤ (pendingConfig t).axes[a].voff := by
  simp only [pendingConfig, Fin.getElem_fin, Vector.getElem_ofFn]
  split
  · exact axisConfig_speeds ..
  · exact le_rfl

/-- A camera with the same motion, in a state that asks no more. -/
theorem PaceFits.congr (h : PaceFits k) (hsp : k'.setpoints = k.setpoints) (hcfg : k'.cfg = k.cfg) (hplan : k'.plan = k.plan) (hp : k'.p = k.p)
    (he : enabledState k'.state = true → enabledState k.state = true) (hw : k'.state = .waiting → k.state = .waiting)
    (hm : k'.state = .waiting ∨ movingState k'.state = true → k.state = .waiting ∨ movingState k.state = true) : PaceFits k' where
  speeds hen := by rw [hcfg]; exact h.speeds (he hen)
  waits hwait := hp ▸ h.waits (hw hwait)
  travel hmove := by rw [hcfg, hplan, hsp, hp]; exact h.travel (hm hmove)

theorem serviceCamera_paceFits (h : PaceFits k) : PaceFits (serviceCamera k) := by
  have hadv : movingState k.state = true → PaceFits (advanceMove k) := fun hm =>
    ⟨h.speeds, fun hw => absurd hw (not_waiting_of_moving hm).1, fun _ a ha => ⟨(h.travel (.inr hm) a ha).1, rfl⟩⟩
  unfold serviceCamera
  split
  · next hs => exact hadv (by rw [hs]; rfl)
  · next hs => exact hadv (by rw [hs]; rfl)
  · next hs =>
    have hno : ¬(k.state = .waiting ∨ movingState k.state = true) := not_planned (.inr (.inr (.inl hs)))
    unfold stepDirect
    split
    · exact h
    · exact ⟨h.speeds, fun hw => absurd (.inl hw) hno, fun hw => absurd hw hno⟩
  · exact h

/-- Every change keeps a camera's pace. -/
theorem CameraChange.paceFits {b : Bool} (hc : CameraChange k0 b k k') (h : PaceFits k) : PaceFits k' := by
  have hidle : ∀ {k' : Camera}, k'.state = .idle → k'.cfg = k.cfg → enabledState k.state = true → PaceFits k' := fun hs hcfg he =>
    ⟨fun _ => by rw [hcfg]; exact h.speeds he, fun hw => absurd (.inl hw) (not_planned (.inl hs)),
      fun hw => absurd hw (not_planned (.inl hs))⟩
  cases hc with
  | notes | parks | tunes | waits | queues | claims | reasons | unmarks | reads | steers => exact h.congr rfl rfl rfl rfl id id id
  | cueEnds _ ha => exact hidle rfl rfl (enabled_of_active ha)
  | moveEnds _ hmo => exact hidle rfl rfl (enabled_of_active (active_of_moving hmo))
  | releases _ hd => exact hidle rfl rfl (by rw [hd]; rfl)
  | begins _ hw =>
    have hp := h.waits hw
    refine ⟨fun _ => h.speeds (by rw [hw]; rfl), nofun, fun _ a ha => ?_⟩
    exact (congrArg (fun n => k.plan.delta[a].natAbs ≤ k.cfg.axes[a].voff * (k.plan.n - k.plan.r) ∧
      k.setpoints[a] = (movePositions k.plan n)[a]) hp).mp (h.travel (.inl hw) a ha)
  | plans _ req pl claim floor hf hpl =>
    have hv := h.speeds (by rw [hf]; rfl)
    refine ⟨fun _ => hv, fun _ => rfl, fun _ a ha => ⟨planMove_travel hpl ha (hv a ha), ?_⟩⟩
    show k.setpoints[a] = (movePositions pl 0)[a]
    rw [getElem_movePositions, moveNum_zero, axisPosition_zero, (planMove_target hpl ha).1]
  | takes _ q rest hi =>
    exact h.congr rfl rfl rfl rfl (fun _ => by rw [hi]; rfl) nofun fun hw => absurd hw (not_planned (.inr (.inl rfl)))
  | drives _ st hl a l r x hmo hd =>
    exact h.congr rfl rfl rfl rfl (fun _ => enabled_of_active (active_of_moving hmo))
      (fun hw => by cases hd <;> cases hw) fun _ => .inr hmo
  | directs _ hi =>
    exact h.congr rfl rfl rfl rfl (fun _ => by rw [hi]; rfl) nofun fun hw => absurd hw (not_planned (.inr (.inr (.inl rfl))))
  | enables => exact ⟨nofun, nofun, fun hw => absurd hw (not_planned (.inr (.inr (.inr (.inr rfl)))))⟩
  | leaves => exact ⟨nofun, nofun, fun hw => absurd hw (not_planned (.inr (.inr (.inr (.inl rfl)))))⟩
  | adopts => exact ⟨fun _ a _ => pendingConfig_speeds _ a, nofun, fun hw => absurd hw (not_planned (.inl rfl))⟩
  | serves =>
    obtain ⟨n, hn⟩ := countWait_eq k
    rw [hn]
    exact serviceCamera_paceFits (h.congr rfl rfl rfl rfl id id id)

theorem disabledCamera_paceFits : PaceFits (disabledCamera k) :=
  ⟨nofun, nofun, fun hw => absurd hw (not_planned (.inr (.inr (.inr (.inl rfl)))))⟩

theorem Course.pace (h : Course s0 P s Q t) (hs : PaceHolds s) : PaceHolds t :=
  h.cameras (J := fun _ => PaceFits) (fun _ _ _ _ => CameraChange.paceFits) (fun _ _ _ _ => disabledCamera_paceFits) hs

/-- An axis of a camera enabled before and now is within its off-air speed of where it stood. -/
def Near (k0 k : Camera) : Prop :=
  enabledState k0.state = true → enabledState k.state = true → ∀ a : Axis, inMask k0.cfg.mask a = true →
    (k.setpoints[a] - k0.setpoints[a]).natAbs ≤ k0.cfg.axes[a].voff

theorem Near.congr (h : Near k0 k) (hsp : k'.setpoints = k.setpoints) (he : enabledState k'.state = true → enabledState k.state = true) :
    Near k0 k' := fun h0 h' a ha => by rw [hsp]; exact h h0 (he h') a ha

/-- A camera moves at most by one tick's step in an event. -/
theorem CameraChange.near {b : Bool} (hc : CameraChange k0 b k k') (hm : MarksFit k0) (hl : LimitsFit k0) (hp : PaceFits k0)
    (hr : CameraRanges k0) (h : Near k0 k) : Near k0 k' := by
  cases hc with
  | notes | parks | tunes | waits | queues | claims | reasons | unmarks | reads | steers => exact h.congr rfl id
  | cueEnds _ ha => exact h.congr rfl fun _ => enabled_of_active ha
  | moveEnds _ hmo => exact h.congr rfl fun _ => enabled_of_active (active_of_moving hmo)
  | releases _ hd => exact h.congr rfl fun _ => by rw [hd]; rfl
  | begins _ hw => exact h.congr rfl fun _ => by rw [hw]; rfl
  | plans _ req pl claim floor hf => exact h.congr rfl fun _ => by rw [hf]; rfl
  | takes _ q rest hi => exact h.congr rfl fun _ => by rw [hi]; rfl
  | drives _ st hl a l r x hmo => exact h.congr rfl fun _ => enabled_of_active (active_of_moving hmo)
  | directs _ hi => exact h.congr rfl fun _ => by rw [hi]; rfl
  | enables => exact fun _ => nofun
  | leaves => exact fun _ => nofun
  | adopts _ t l o held h0 =>
    intro he
    rw [hm.adopting h0] at he
    cases he
  | serves _ hk =>
    subst hk
    intro he _ a ha
    have hcount := countWait_ranges hr
    obtain ⟨n, hn⟩ := countWait_eq k
    rw [hn] at hcount ⊢
    exact serviceCamera_pace (k := { k with waitCount := n })
      (hl.congr rfl rfl rfl rfl id id (fun t ht => ⟨ht, id⟩) hl.adoption) (hp.congr rfl rfl rfl rfl id id id)
      hcount he ha

theorem near_refl (k : Camera) : Near k k := fun _ _ a _ => by simp

/-- Settles O57: a camera is moved by a tick's service alone, whose progress of at most 256 keeps its off-air speed. -/
theorem stepKeepsPace : Obligations.StepKeepsPace := by
  intro s t h hc hr hl hp
  obtain ⟨rest, rfl | rfl | ⟨landed, rfl⟩ | ⟨u, free, hu, rfl⟩⟩ := step_does h
  · exact ⟨hp, fun c a h0 h1 ha => near_refl (t.cam c) h0 h1 a ha⟩
  · exact ⟨hp, fun c a h0 h1 ha => near_refl (s.cam c) h0 h1 a ha⟩
  · exact ⟨fun c => reset_cam c ▸ paceFits_reset, fun c a _ h1 => by
      have hoff : ((resetState (landedState landed { s with pending := rest })).cam c).state = .offline := by
        rw [show (resetState _).cam c = resetCamera from reset_cam c]; rfl
      rw [hoff] at h1; cases h1⟩
  · have hcams : ∀ c, (arbitrate free (markRecords { s with pending := rest } u)).cam c = u.cam c := (settled_calm free _ u).cam
    refine ⟨fun c => hcams c ▸ hu.pace hp c, fun c a h0 h1 ha => ?_⟩
    rw [hcams] at h1 ⊢
    exact hu.cameras (J := fun c => Near (s.cam c))
      (fun c _ _ _ hk => hk.near (companionsFit_iff.mp (hc c)).1 (hl c) (hp c) (((rangesHold_iff s).mp hr).2.2 c))
      (fun c _ _ _ _ => nofun) (fun c => near_refl (s.cam c)) c h0 h1 a ha

end Sys2Proof.Machine

/-! The floor: BLOCKED cells with ACTIVE zones, HELD cells with enabled ROAMING cameras (R101, R103, R113, R114, R116). -/

namespace Sys2Proof.Machine

variable {s0 s t u : State} {P Q : Set Cam} {c d : Cam} {k k0 k' : Camera} {f g : FloorMap}

/-! Zones -/

/-- The law of the zones speaks of the floor alone. -/
structure FloorZones (f : FloorMap) : Prop where
  blocked : ∀ x y : Fin 32, gridAt f.cells x y = .blocked ↔ inActiveZone f x y
  applied : ∀ z : Fin 16, f.zones[z].applied.isSome = decide (f.zones[z].status = .active)

theorem zonesHold_iff : ZonesHold s ↔ FloorZones s.floor := ⟨fun h => ⟨h.blocked, h.applied⟩, fun h => ⟨h.blocked, h.applied⟩⟩

theorem zone_of_set {z : Fin 16} {e : Zone} (h : g.zones = f.zones.set z e) (y : Fin 16) :
    g.zones[y] = if y = z then e else f.zones[y] := by
  simp only [h, Fin.getElem_fin, Vector.getElem_set, Fin.ext_iff, eq_comm]

/-- The cell lies in an ACTIVE zone other than z. -/
theorem otherZone_iff {z : Fin 16} {x y : Fin 32} :
    otherZone f z x y = true ↔ ∃ i, i ≠ z ∧ f.zones[i].status = .active ∧ f.zones[i].applied.any (inRect · x y) = true := by
  simp only [otherZone, List.any_eq_true, List.mem_finRange, true_and, Bool.and_eq_true, bne_iff_ne, ne_eq, beq_iff_eq, and_assoc]

theorem inActiveZone_split (z : Fin 16) {x y : Fin 32} : inActiveZone f x y ↔
    (f.zones[z].status = .active ∧ f.zones[z].applied.any (inRect · x y) = true) ∨ otherZone f z x y = true := by
  rw [otherZone_iff]
  constructor
  · rintro ⟨i, hi⟩
    by_cases he : i = z
    · exact .inl (he ▸ hi)
    · exact .inr ⟨i, he, hi⟩
  · rintro (h | ⟨i, -, hi⟩)
    · exact ⟨z, h⟩
    · exact ⟨i, hi⟩

/-- A new entry z leaves the zones other than z. -/
theorem otherZone_set {z : Fin 16} {e : Zone} (h : g.zones = f.zones.set z e) (x y : Fin 32) : otherZone g z x y = otherZone f z x y := by
  rw [Bool.eq_iff_iff, otherZone_iff, otherZone_iff]
  refine exists_congr fun i => and_congr_right fun hi => ?_
  rw [zone_of_set h, if_neg hi]

/-- Cells that are BLOCKED where they were, with the zones as they were. -/
theorem FloorZones.congr (h : FloorZones f) (hz : ∀ z : Fin 16, g.zones[z].status = f.zones[z].status ∧ g.zones[z].applied = f.zones[z].applied)
    (hc : ∀ x y : Fin 32, gridAt g.cells x y = .blocked ↔ gridAt f.cells x y = .blocked) : FloorZones g where
  blocked x y := by
    rw [hc, h.blocked]
    exact exists_congr fun z => by rw [(hz z).1, (hz z).2]
  applied z := by rw [(hz z).1, (hz z).2]; exact h.applied z

theorem FloorZones.of_zones (h : FloorZones f) (hz : g.zones = f.zones)
    (hc : ∀ x y : Fin 32, gridAt g.cells x y = .blocked ↔ gridAt f.cells x y = .blocked) : FloorZones g :=
  h.congr (fun _ => by rw [hz]; exact ⟨rfl, rfl⟩) hc

/-- A change of one entry that agrees with its rectangle. -/
theorem FloorZones.applied_set (h : FloorZones f) {z : Fin 16} {e : Zone} (hz : g.zones = f.zones.set z e)
    (he : e.applied.isSome = decide (e.status = .active)) (y : Fin 16) :
    g.zones[y].applied.isSome = decide (g.zones[y].status = .active) := by
  rw [zone_of_set hz]
  split
  · exact he
  · exact h.applied y

/-- Every change of the zones keeps their law. -/
theorem ZoneChange.floorZones (hc : ZoneChange f g) (h : FloorZones f) : FloorZones g := by
  cases hc with
  | bounds hcells hz => exact h.congr hz fun x y => by rw [hcells]
  | restates z st hold hnew hcells hz =>
    refine ⟨fun x y => ?_, h.applied_set hz (by rw [decide_eq_false hnew]; rfl)⟩
    rw [hcells, h.blocked, inActiveZone_split z, inActiveZone_split (f := g) z, otherZone_set hz, zone_of_set hz, if_pos rfl]
    simp only [hold, hnew, false_and]
  | applies z r hold hfree hcells hz =>
    refine ⟨fun x y => ?_, h.applied_set hz (by rfl)⟩
    have hb := h.blocked x y
    rw [inActiveZone_split z] at hb
    simp only [hold, false_and, false_or] at hb
    rw [hcells, inActiveZone_split (f := g) z, otherZone_set hz, zone_of_set hz, if_pos rfl, ← hb]
    simp only [Option.any_some, true_and]
    by_cases hr : inRect r x y = true
    · have hheld := hfree x y hr
      cases hcell : gridAt f.cells x y with
      | free => simp [hr]
      | blocked => simp [hr]
      | held c => rw [hcell] at hheld; cases hheld
    · simp [hr]
  | removes z hold hcells hz =>
    refine ⟨fun x y => ?_, h.applied_set hz (by rfl)⟩
    have hb := h.blocked x y
    rw [inActiveZone_split z] at hb
    simp only [hold, true_and] at hb
    rw [hcells, inActiveZone_split (f := g) z, otherZone_set hz, zone_of_set hz, if_pos rfl]
    cases hz : f.zones[z].applied.any (inRect · x y) <;> cases ho : otherZone f z x y <;> simp_all

theorem CellsOf.blocked {a b : Grid Cell} (h : CellsOf c k k' a b) (x y : Fin 32) :
    gridAt b x y = .blocked ↔ gridAt a x y = .blocked := by
  rcases h x y with he | ⟨ha, hb⟩ | ⟨ha, hb, -⟩
  · rw [he]
  · rw [ha, hb]; exact ⟨nofun, nofun⟩
  · rw [ha, hb]; exact ⟨nofun, nofun⟩

theorem Change.floorZones {a b : Set Cam × State} (hc : Change s0 a b) (h : FloorZones a.2.floor) : FloorZones b.2.floor := by
  cases hc with
  | cam P s t c b k hk hcams hcells hz => exact h.of_zones hz hcells.blocked
  | all P s t hcams hf => exact hf ▸ h
  | disable P s t c he hcams hcells hz =>
    refine h.of_zones hz fun x y => ?_
    rw [hcells]
    split
    · next hheld => rw [hheld]; exact ⟨nofun, nofun⟩
    · exact Iff.rfl
  | zone P s t hcams hz => exact hz.floorZones h
  | rest => exact h

theorem Course.zones (h : Course s0 P s Q t) (hs : ZonesHold s) : ZonesHold t :=
  zonesHold_iff.mpr (h.keeps (I := fun a => FloorZones a.2.floor) (fun _ _ => Change.floorZones) (zonesHold_iff.mp hs))

/-! Holders -/

/-- An enabled ROAMING camera. -/
def Roams (k : Camera) : Prop := enabledState k.state = true ∧ isRoaming k = true

/-- What a camera holds fits its kind and state (R103). -/
structure HolderFits (k : Camera) : Prop where
  marks : MarksFit k
  held : k.held.isSome = true → Roams k
  claim : k.claim.isSome = true → Roams k

theorem Roams.not_adopting (h : Roams k) (hs : k.state = .adopting) : False := by
  have he := h.1
  rw [hs] at he; cases he

/-- An enabled ROAMING camera stays so, until it leaves service (R64). -/
theorem CameraChange.roams {b : Bool} (hc : CameraChange k0 b k k') (hm : MarksFit k) (h : Roams k) : Roams k' := by
  cases hc with
  | leaves _ ha => exact (h.not_adopting (ha.elim id hm.adopting)).elim
  | adopts _ t l o held _ ha => exact (h.not_adopting (hm.adopting ha)).elim
  | enables _ ad ho => exact absurd h.1 (by rw [ho]; nofun)
  | drives _ st hl a l r x hmo hd => exact ⟨by cases hd <;> rfl, h.2⟩
  | serves =>
    obtain ⟨rate, p, q, sp, n, he⟩ := serviceCamera_countWait k
    rw [he]
    exact h
  | cueEnds | moveEnds | begins | plans | takes | directs | releases => exact ⟨rfl, h.2⟩
  | notes | parks | claims | queues | tunes | reasons | unmarks | steers | reads | waits => exact h

/-- A change that leaves what the camera holds, or what it claims. -/
theorem CameraChange.holderFits {b : Bool} (hc : CameraChange k0 b k k') (h : HolderFits k) : HolderFits k' := by
  have hr : Roams k → Roams k' := hc.roams h.marks
  refine ⟨hc.marksFit h.marks, ?_, ?_⟩
  · cases hc with
    | parks _ r he hro => exact fun _ => ⟨he, hro⟩
    | claims _ r hw hcl => exact fun _ => hr (h.claim (by rw [hcl]; rfl))
    | adopts _ t l o held _ _ _ hk => exact fun hh => ⟨rfl, by simp [isRoaming, adoptedCamera, hk hh]⟩
    | serves =>
      obtain ⟨rate, p, q, sp, n, he⟩ := serviceCamera_countWait k
      rw [he] at hr ⊢
      exact hr ∘ h.held
    | _ => exact hr ∘ h.held
  · cases hc with
    | plans _ req pl claim floor hf _ hcl => exact fun hh => ⟨rfl, hcl hh⟩
    | adopts => exact nofun
    | serves =>
      obtain ⟨rate, p, q, sp, n, he⟩ := serviceCamera_countWait k
      rw [he] at hr ⊢
      exact hr ∘ h.claim
    | _ => exact hr ∘ h.claim

/-- Cells are HELD by enabled ROAMING cameras alone, and every camera's holdings fit it. -/
def HoldersFit (s : State) : Prop :=
  (∀ c, HolderFits (s.cam c)) ∧ ∀ (x y : Fin 32) (c : Cam), gridAt s.floor.cells x y = .held c → Roams (s.cam c)

theorem disabledCamera_holderFits (he : enabledState k.state = true) (h : HolderFits k) : HolderFits (disabledCamera k) :=
  ⟨disabledCamera_marksFit he h.marks, nofun, nofun⟩

theorem Change.holdersFit {a b : Set Cam × State} (hc : Change s0 a b) (h : HoldersFit a.2) : HoldersFit b.2 := by
  refine ⟨hc.cameras (J := fun _ => HolderFits) (fun _ _ _ _ => CameraChange.holderFits) (fun _ _ => disabledCamera_holderFits) h.1, ?_⟩
  obtain ⟨hfit, hcell⟩ := h
  cases hc with
  | cam P s t c b k hk hcams hcells hz =>
    intro x y d hd
    rw [cam_of_set hcams]
    rcases hcells x y with he | ⟨-, hb⟩ | ⟨-, hb, hen, hro⟩
    · have hroams := hcell x y d (he ▸ hd)
      split
      · next hdc => subst hdc; exact hk.roams (hfit d).marks hroams
      · exact hroams
    · rw [hb] at hd; cases hd
    · rw [hb] at hd
      cases hd
      rw [if_pos rfl]
      refine ⟨hen, hro.elim id fun ⟨hcl, hcfg⟩ => ?_⟩
      have hroam := ((hfit c).claim hcl).2
      simp only [isRoaming, hcfg] at hroam ⊢
      exact hroam
  | all P s t hcams hf =>
    intro x y d hd
    have hroams := hcell x y d (hf ▸ hd)
    rcases hcams d with he | he
    · exact he ▸ hroams
    · exact he.roams (hfit d).marks hroams
  | disable P s t c he hcams hcells hz =>
    intro x y d hd
    rw [hcells] at hd
    split at hd
    · cases hd
    · next hne =>
      have hdc : d ≠ c := by rintro rfl; exact hne hd
      rw [cam_of_set hcams, if_neg hdc]
      exact hcell x y d hd
  | zone P s t hcams hz =>
    intro x y d hd
    rw [State.cam_congr hcams]
    refine hcell x y d ?_
    cases hz with
    | bounds hcells => exact hcells ▸ hd
    | restates z st _ _ hcells => exact hcells ▸ hd
    | applies z r _ _ hcells =>
      rw [hcells] at hd
      split at hd
      · cases hd
      · exact hd
    | removes z _ hcells =>
      rw [hcells] at hd
      split at hd
      · cases hd
      · exact hd
  | rest => exact hcell

theorem holdersFit_iff (hc : CompanionsHold s) : HoldersRoam s ↔ HoldersFit s :=
  ⟨fun h => ⟨fun c => ⟨(companionsFit_iff.mp (hc c)).1, h.held c, h.claim c⟩, h.cells⟩,
    fun h => ⟨h.2, fun c => (h.1 c).held, fun c => (h.1 c).claim, fun c => (h.1 c).marks.adopting⟩⟩

theorem Course.holders (h : Course s0 ∅ s ∅ t) (hc : CompanionsHold s) (hs : HoldersRoam s) : HoldersRoam t :=
  (holdersFit_iff (h.companions hc)).mpr
    (h.keeps (I := fun a => HoldersFit a.2) (fun _ _ => Change.holdersFit) ((holdersFit_iff hc).mp hs))

theorem Calm.zones (h : Calm s t) (hs : ZonesHold s) : ZonesHold t := zonesHold_iff.mpr (h.floor ▸ zonesHold_iff.mp hs)

theorem Calm.holders (h : Calm s t) (hs : HoldersRoam s) : HoldersRoam t :=
  ⟨by rw [h.floor]; simp only [h.cam]; exact hs.cells, by simp only [h.cam]; exact hs.held, by simp only [h.cam]; exact hs.claim,
    by simp only [h.cam]; exact hs.adoption⟩

/-- Settles O55: every elementary change keeps the law of the zones, and takes cells for enabled ROAMING cameras alone. -/
theorem stepKeepsTheFloor : Obligations.StepKeepsTheFloor := by
  intro s t h hc
  refine ⟨step_keeps (I := ZonesHold) (fun _ _ hs => ⟨hs.blocked, hs.applied⟩)
      (fun _ _ _ => ⟨zonesHold_reset.blocked, zonesHold_reset.applied⟩) (fun s u free hs hu => (settled_calm free s u).zones (hu.zones hs)) h,
    fun hr => (step_keeps (I := fun s => CompanionsHold s ∧ HoldersRoam s) (fun _ _ hs => ⟨hs.1, hs.2.cells, hs.2.held, hs.2.claim, hs.2.adoption⟩)
      (fun _ _ _ => ⟨fun c => reset_cam c ▸ companionsFit_reset, holdersRoam_reset.cells, holdersRoam_reset.held, holdersRoam_reset.claim,
        holdersRoam_reset.adoption⟩)
      (fun s u free ⟨hsc, hsr⟩ hu => ⟨fun c => by rw [(settled_calm free s u).cam]; exact hu.companions hsc c,
        (settled_calm free s u).holders (hu.holders hsc hsr)⟩) h ⟨hc, hr⟩).2⟩

end Sys2Proof.Machine

/-! The host's writes of region words (R151 to R160). -/

namespace Sys2Proof.Machine

variable {s u v t : State} {c : Cam} {w : MWord} {a : Addr}

/-! Changes of what an event leaves -/

/-- A change of a camera after an event's other changes. -/
theorem Settled.modCam (h : Settled u v) (c : Cam) (f : Camera → Camera) : Settled (withCam c (f (u.cam c)) u) (v.modCam c f) :=
  { h with cams := by rw [State.modCam, State.setCam, withCam, h.cam, h.cams] }

/-- A host access that ends. -/
theorem Settled.endHost (h : Settled u v) (a : Addr) (isWrite berr : Bool) (w : MWord) :
    Settled (hostEnds a isWrite berr w u) (v.endHost a isWrite berr w) :=
  { h with ended := rfl }

/-- A low half that is held. -/
theorem Settled.stage (h : Settled u v) (x : Option Staged) :
    Settled { u with bus := { u.bus with staging := x } } (v.modBus fun b => { b with staging := x }) :=
  { h with staging := rfl }

/-- A flag that is set. -/
theorem Settled.flag (h : Settled u v) (f : BitVec 12) :
    Settled { u with stat := { u.stat with flags := u.stat.flags ||| f } } (v.flag f) :=
  { h with flags := congrArg (· ||| f) h.flags }

theorem Settled.refuse (h : Settled u v) (x : HostAccess) :
    Settled (refused x.addr x.write.isSome (x.write.getD (goodWord 0)) u) (refuseAccess x v) := (h.flag flagFenceHit).endHost ..

/-! A host write to a region word -/

/-- A ready part that forwards a host write leaves it at the arbiter or at the port. -/
theorem presentAt_forward {off : Offset} {b : Addr} {x y : Option MWord} {e : OnEnd} (hr : HostReady s)
    (hf : regionWrite off.toNat ⟨addrOf s.base off, some w⟩ w (testHostWord ⟨addrOf s.base off, some w⟩ s) = forward b x y e v)
    (hs : Settled u v) (hb : v.bus = s.bus) (hm : v.mem = s.mem) :
    SameMemory s (settle s (presentAt off w s)) ∧ Settled u (settle s (presentAt off w s)) ∧
      Forwarded b x y e (settle s (presentAt off w s)) := by
  rw [presentAt_region hr, hf]
  exact settle_forward hs (by rw [hb]; exact hr.queue) hm s b x y e

/-- A ready part whose host access ends at once. -/
theorem presentAt_ended {off : Offset} (hr : HostReady s)
    (hv : regionWrite off.toNat ⟨addrOf s.base off, some w⟩ w (testHostWord ⟨addrOf s.base off, some w⟩ s) = v)
    (hs : Settled u v) (hq : v.bus.queue = []) (hm : v.mem = s.mem) :
    SameMemory s (settle s (presentAt off w s)) ∧ Settled u (settle s (presentAt off w s)) := by
  rw [presentAt_region hr, hv]
  have hw : HostWaits v := .of_empty hq
  exact ⟨settle_same hw hm s, settle_settled hw hs s⟩

theorem testHostWord_ok (hw : wordOk w = true) (a : Addr) (s : State) : testHostWord ⟨a, some w⟩ s = s :=
  testHostWord_good (by simpa using hw)

theorem testHostWord_cams (a : Addr) (w : MWord) (s : State) : (testHostWord ⟨a, some w⟩ s).cams = s.cams := by
  simp only [testHostWord]
  split <;> rfl

theorem testHostWord_cam (a : Addr) (w : MWord) (s : State) (c : Cam) : (testHostWord ⟨a, some w⟩ s).cam c = s.cam c :=
  State.cam_congr (testHostWord_cams a w s) c

theorem tested_cam (a : Addr) (w : MWord) (s : State) (c : Cam) : (tested a w s).cam c = s.cam c := by
  simp only [tested]
  split <;> rfl

/-! Refused and passed words (R152) -/

theorem regionWord_of_refused {off : Nat} (h : RefusedWord off) : regionWord off = .refuse := by
  rcases h with ⟨h1, h2, h3, h4, h5, h6, h7⟩ | rfl | ⟨h1, h2, h3⟩ | ⟨h1, h2⟩ | ⟨h1, h2⟩
  · simp [regionWord, blockWordClass, show ¬off < 0x40 by omega, h2, h3, h4, h5, h6, h7]
  · rfl
  · have hk : (off - 0x100) % 8 = 5 := by omega
    simp only [regionWord, zoneWordClass, hk]
    rw [if_neg (by omega), if_neg (by omega), if_neg (by omega), if_neg (by omega), if_neg (by omega), if_neg (by omega), if_neg (by omega),
      if_pos (by omega)]
    simp
  · simp only [regionWord]
    iterate 12 rw [if_neg (by omega)]
    rw [if_pos (by omega)]
  · simp only [regionWord]
    iterate 14 rw [if_neg (by omega)]
    rw [if_pos (by omega)]

theorem fenceWordClass_pass (n : Fin 8) {k : Nat} (h : 5 ≤ k) : fenceWordClass n k = .pass := by
  rw [fenceWordClass, if_neg (by omega), if_neg (by omega)]

theorem zoneWordClass_pass (z : Fin 16) {k : Nat} (h : 6 ≤ k) : zoneWordClass z k = .pass := by
  rw [zoneWordClass, if_neg (by omega), if_neg (by omega), if_neg (by omega)]

theorem mailboxWordClass_pass (c : Cam) {k : Nat} (h : 5 ≤ k) : mailboxWordClass c k = .pass := by
  rw [mailboxWordClass, if_neg (by omega), if_neg (by omega)]

theorem frameWordClass_pass (c : Cam) {k : Nat} (h : 33 ≤ k ∧ (k < 48 ∨ 62 ≤ k)) : frameWordClass c k = .pass := by
  rw [frameWordClass, if_neg (by omega), if_neg (by omega)]

theorem regionWord_of_pass {off : Nat} (h : PassWord off) : regionWord off = .pass := by
  rcases h with h | ⟨h1, h2, h3⟩ | ⟨h1, h2⟩ | ⟨h1, h2, h3⟩ | ⟨h1, h2⟩ | ⟨h1, h2, h3⟩ | ⟨h1, h2⟩ | ⟨h1, h2, h3, h4⟩ | ⟨h1, h2⟩ | h1 <;>
    simp only [regionWord]
  · rw [if_pos h]
  · iterate 2 rw [if_neg (by omega)]
    rw [if_pos (by omega), fenceWordClass_pass _ (by omega)]
  · iterate 6 rw [if_neg (by omega)]
    rw [if_pos (by omega)]
  · iterate 7 rw [if_neg (by omega)]
    rw [if_pos (by omega), zoneWordClass_pass _ (by omega)]
  · iterate 8 rw [if_neg (by omega)]
    rw [if_pos (by omega)]
  · iterate 9 rw [if_neg (by omega)]
    rw [if_pos (by omega), mailboxWordClass_pass _ (by omega)]
  · iterate 10 rw [if_neg (by omega)]
    rw [if_pos (by omega)]
  · iterate 13 rw [if_neg (by omega)]
    rw [if_pos (by omega), frameWordClass_pass _ (by omega)]
  · iterate 15 rw [if_neg (by omega)]
    rw [if_pos (by omega)]
  · iterate 17 rw [if_neg (by omega)]

/-! Refused writes -/

/-- A refused host write, with a change of the part before it. -/
theorem presentAt_refused {off : Offset} (hr : HostReady s) (hw : wordOk w = true)
    (hv : regionWrite off.toNat ⟨addrOf s.base off, some w⟩ w s = refuseAccess ⟨addrOf s.base off, some w⟩ v) (hs : Settled u v)
    (hb : v.bus = s.bus) (hm : v.mem = s.mem) :
    SameMemory s (settle s (presentAt off w s)) ∧ Settled (refused (addrOf s.base off) true w u) (settle s (presentAt off w s)) :=
  presentAt_ended hr (by rw [testHostWord_ok hw]; exact hv) (hs.refuse ⟨addrOf s.base off, some w⟩)
    (by rw [← hr.queue, ← hb]; rfl) (by rw [← hm]; rfl)

theorem blockedWrite_settled (c : Cam) (s : State) :
    Settled (withCam c { s.cam c with blocked := Nat.min 255 ((s.cam c).blocked + 1) } s) (s.blockedWrite c) :=
  (Settled.refl s).modCam c countBlocked

/-- Settles O11: each word's class refuses it, two of them after the blocked-write count has risen. -/
theorem refusedWritesEndWithABusError : Obligations.RefusedWritesEndWithABusError := by
  intro s w hr hw
  refine ⟨fun off hoff => ⟨_, rfl, ?_⟩, fun c k => ⟨_, rfl, ?_⟩, fun c k hd hk => ⟨_, rfl, ?_⟩⟩
  · exact presentAt_refused hr hw (by rw [regionWrite, regionWord_of_refused hoff]) (.refl s) rfl rfl
  · exact presentAt_refused hr hw (by rw [regionWrite, regionWord_frame]) (blockedWrite_settled c s) rfl rfl
  · refine presentAt_refused hr hw ?_ (blockedWrite_settled c s) rfl rfl
    have hrefused : ∀ a : Axis, a = floorX ∨ a = floorY → slotRefused (s.cam c) a = true := fun a ha => by
      simpa [slotRefused, isRoaming, hd, hk] using ha
    rw [regionWrite, regionWord_floorSlot]
    exact if_pos (hrefused _ (by split <;> simp))

end Sys2Proof.Machine

/-! The words that a host write clears, and the watched words (R153, R160, R165, R167; R15, R65, R113). -/

namespace Sys2Proof.Machine

variable {s u v t : State} {c : Cam} {w : MWord} {a : Addr}

/-! Clearing words -/

theorem regionWord_flags : regionWord (0x40 : Offset).toNat = .flags := by decide

theorem regionWord_captureClear : regionWord (0x60 : Offset).toNat = .captureClear := by decide

theorem regionWord_missed : regionWord (0x48 : Offset).toNat = .missed := by decide



/-- A clearing word of good parity: the change and the altered word. -/
theorem presentAt_cleared {off : Offset} {d : BitVec 16} (hr : HostReady s) (hw : wordOk w = true)
    (hv : regionWrite off.toNat ⟨addrOf s.base off, some w⟩ w s =
      forward (addrOf s.base off) (some (goodWord d)) none .nothing v)
    (hs : Settled u v) (hb : v.bus = s.bus) (hm : v.mem = s.mem) :
    SameMemory s (settle s (presentAt off w s)) ∧ Settled u (settle s (presentAt off w s)) ∧
      Forwarded (addrOf s.base off) (some (goodWord d)) none .nothing (settle s (presentAt off w s)) :=
  presentAt_forward hr (by rw [testHostWord_ok hw, hv]) hs hb hm

/-- A word of bad parity is handed on, and what stands is forwarded. -/
theorem presentAt_bad {off : Offset} {x : MWord} {e : OnEnd} (hr : HostReady s) (hw : wordOk w = false)
    (hv : regionWrite off.toNat ⟨addrOf s.base off, some w⟩ w (s.error .passParity false (addrOf s.base off) w) =
      forward (addrOf s.base off) (some x) none e (s.error .passParity false (addrOf s.base off) w)) :
    SameMemory s (settle s (presentAt off w s)) ∧
      Settled (withError .passParity false (addrOf s.base off) w s) (settle s (presentAt off w s)) ∧
      Forwarded (addrOf s.base off) (some x) none e (settle s (presentAt off w s)) :=
  presentAt_forward hr (by rw [testHostWord_bad hw, hv]) (error_settled ..) rfl rfl

theorem error_flags (cls : ErrClass) (own : Bool) (a : Addr) (w : MWord) (s : State) :
    (s.error cls own a w).stat.flags = s.stat.flags ||| errFlag cls := by
  obtain ⟨fd, cd, h⟩ := error_stat cls own a w s
  rw [h]

theorem error_capture (cls : ErrClass) (own : Bool) (a : Addr) (w : MWord) (s : State) :
    (s.error cls own a w).stat.capture = captured cls own a w s.stat.capture := by
  obtain ⟨fd, cd, h⟩ := error_stat cls own a w s
  rw [h]

theorem clearFlags_settled (f : BitVec 12) (s : State) :
    Settled { s with stat := { s.stat with flags := s.stat.flags &&& ~~~f } } (s.modStat (clearFlags f)) := by
  constructor <;> first | rfl | exact fun _ => rfl

theorem clearCapture_settled (s : State) : Settled { s with stat := { s.stat with capture := emptyError } } (s.modStat clearCapture) := by
  constructor <;> first | rfl | exact fun _ => rfl

theorem setMissed_settled (n : Nat) (s : State) : Settled { s with timer := { s.timer with missed := n } } (s.setMissed n) := by
  constructor <;> first | rfl | exact fun _ => rfl

theorem setFences_settled (fs : Vector Fence 8) (s : State) : Settled { s with fences := fs } (s.setFences fs) := by
  constructor <;> first | rfl | exact fun _ => rfl

theorem flagsWord_cleared (hr : HostReady s) (w : MWord) :
    ∃ t, exec (.flagsWordWrite w) s = .next t ∧ SameMemory s t ∧
      (wordOk w = true →
        Settled { s with stat := { s.stat with flags := s.stat.flags &&& ~~~(w.data.extractLsb' 0 12) } } t ∧
        Forwarded (addrOf s.base 0x40) (some (goodWord ((s.stat.flags &&& ~~~(w.data.extractLsb' 0 12)).setWidth 16))) none .nothing t) ∧
      (wordOk w = false →
        Settled (withError .passParity false (addrOf s.base 0x40) w s) t ∧
        Forwarded (addrOf s.base 0x40) (some (poisonWord ((s.stat.flags ||| flagParityFault).setWidth 16))) none .nothing t) := by
  refine ⟨_, rfl, ?_⟩
  cases hw : wordOk w with
  | true =>
    obtain ⟨hm, hs, hf⟩ := presentAt_cleared hr hw (off := 0x40) (by rw [regionWrite, regionWord_flags]; simp only [writeFlags, hw]; rfl)
      (clearFlags_settled (w.data.extractLsb' 0 12) s) rfl rfl
    exact ⟨hm, fun _ => ⟨hs, hf⟩, nofun⟩
  | false =>
    obtain ⟨hm, hs, hf⟩ := presentAt_bad hr hw (off := 0x40)
      (x := poisonWord ((s.error .passParity false (addrOf s.base 0x40) w).stat.flags.setWidth 16))
      (by rw [regionWrite, regionWord_flags]; simp only [writeFlags, hw]; rfl)
    rw [error_flags] at hf
    exact ⟨hm, nofun, fun _ => ⟨hs, hf⟩⟩

theorem captureWord_cleared (hr : HostReady s) (w : MWord) :
    ∃ t, exec (.captureClearWrite w) s = .next t ∧ SameMemory s t ∧
      (wordOk w = true →
        Settled { s with stat := { s.stat with capture := emptyError } } t ∧
        Forwarded (addrOf s.base 0x60) (some (goodWord 0)) none .nothing t) ∧
      (wordOk w = false →
        Settled (withError .passParity false (addrOf s.base 0x60) w s) t ∧
        Forwarded (addrOf s.base 0x60)
          (some (poisonWord (errCode (captured .passParity false (addrOf s.base 0x60) w s.stat.capture).cls))) none .nothing t) := by
  refine ⟨_, rfl, ?_⟩
  cases hw : wordOk w with
  | true =>
    obtain ⟨hm, hs, hf⟩ := presentAt_cleared hr hw (off := 0x60)
      (by rw [regionWrite, regionWord_captureClear]; simp only [writeCaptureClear, hw]; rfl) (clearCapture_settled s) rfl rfl
    exact ⟨hm, fun _ => ⟨hs, hf⟩, nofun⟩
  | false =>
    obtain ⟨hm, hs, hf⟩ := presentAt_bad hr hw (off := 0x60)
      (x := poisonWord (errCode (s.error .passParity false (addrOf s.base 0x60) w).stat.capture.cls))
      (by rw [regionWrite, regionWord_captureClear]; simp only [writeCaptureClear, hw]; rfl)
    rw [error_capture] at hf
    exact ⟨hm, nofun, fun _ => ⟨hs, hf⟩⟩

theorem missedWord_cleared (hr : HostReady s) (w : MWord) :
    ∃ t, exec (.missedFrameCounterWrite w) s = .next t ∧ SameMemory s t ∧
      (wordOk w = true →
        Settled { s with timer := { s.timer with missed := 0 } } t ∧
        Forwarded (addrOf s.base 0x48) (some (goodWord 0)) none .nothing t) ∧
      (wordOk w = false →
        Settled (withError .passParity false (addrOf s.base 0x48) w s) t ∧
        Forwarded (addrOf s.base 0x48) (some (poisonWord (BitVec.ofNat 16 s.timer.missed))) none .nothing t) := by
  refine ⟨_, rfl, ?_⟩
  cases hw : wordOk w with
  | true =>
    obtain ⟨hm, hs, hf⟩ := presentAt_cleared hr hw (off := 0x48)
      (by rw [regionWrite, regionWord_missed]; simp only [writeMissed, hw]; rfl) (setMissed_settled 0 s) rfl rfl
    exact ⟨hm, fun _ => ⟨hs, hf⟩, nofun⟩
  | false =>
    obtain ⟨hm, hs, hf⟩ := presentAt_bad hr hw (off := 0x48)
      (by rw [regionWrite, regionWord_missed]; simp only [writeMissed, hw]; rfl)
    exact ⟨hm, nofun, fun _ => ⟨hs, hf⟩⟩

theorem hitsWord_cleared (hr : HostReady s) (n : Fin 8) (w : MWord) :
    ∃ t, exec (.fenceHitCounterWrite n w) s = .next t ∧ SameMemory s t ∧
      (wordOk w = true →
        Settled { s with fences := s.fences.set n { s.fences[n] with hits := 0 } } t ∧
        Forwarded (addrOf s.base (hitsOff n)) (some (goodWord 0)) none .nothing t) ∧
      (wordOk w = false →
        Settled (withError .passParity false (addrOf s.base (hitsOff n)) w s) t ∧
        Forwarded (addrOf s.base (hitsOff n)) (some (poisonWord (BitVec.ofNat 16 s.fences[n].hits))) none .nothing t) := by
  refine ⟨_, rfl, ?_⟩
  cases hw : wordOk w with
  | true =>
    have hzero : natWord (s.fences.set n { s.fences[n] with hits := 0 })[n].hits = 0 := by simp [natWord]
    obtain ⟨hm, hs, hf⟩ := presentAt_cleared hr hw (off := hitsOff n) (d := 0)
      (v := s.setFences (s.fences.set n { s.fences[n] with hits := 0 }))
      (by rw [regionWrite, regionWord_hits]; simp only [writeHits, hw, if_true, State.setFences, hzero]; rfl) (setFences_settled _ s) rfl rfl
    exact ⟨hm, fun _ => ⟨hs, hf⟩, nofun⟩
  | false =>
    obtain ⟨hm, hs, hf⟩ := presentAt_bad hr hw (off := hitsOff n)
      (by rw [regionWrite, regionWord_hits]; simp only [writeHits, hw]; rfl)
    exact ⟨hm, nofun, fun _ => ⟨hs, hf⟩⟩

/-- Settles O13, word by word. -/
theorem clearingWordsAreAltered : Obligations.ClearingWordsAreAltered := fun _ w hr =>
  ⟨flagsWord_cleared hr w, captureWord_cleared hr w, missedWord_cleared hr w, fun n => hitsWord_cleared hr n w⟩

end Sys2Proof.Machine

/-! The watched words, and a word of bad parity that completes -/

namespace Sys2Proof.Machine

variable {s u v t : State} {c : Cam} {w : MWord} {a : Addr}

theorem hostDone_settled (b : Bool) (a : Addr) (w : MWord) (h : Settled u v) : Settled (hostEnds a true false w u) (hostDone b a w v) :=
  { h with ended := rfl }

/-- A host write of a bad word that can complete at this event does: it is tested at its decode, which has been before when it holds the
port, and its owner is given the word as it is in memory (R151, R159). -/
theorem completeWrite_bad {off : Offset} {e : OnEnd} (h : Completing s (addrOf s.base off) w e) (hw : wordOk w = false)
    (hc : ∀ u : State, regionWrite off.toNat ⟨addrOf s.base off, some w⟩ w u = forward (addrOf s.base off) (some w) none e u) :
    ∃ b v, (v = s ∨ v = s.error .passParity false (addrOf s.base off) w) ∧
      completeWrite off w s = settleWith false s (takeOnEnd e w (hostDone b (addrOf s.base off) w v)) := by
  rcases h.port with hp | hp
  · refine ⟨false, s.error .passParity false (addrOf s.base off) w, .inr rfl, ?_⟩
    have hready : HostReady s := ⟨h.running, by simp [hostBusy, h.held, h.req, hp], h.queue, h.staging⟩
    have hpres : present ⟨addrOf s.base off, some w⟩ s =
        forward (addrOf s.base off) (some w) none e (s.error .passParity false (addrOf s.base off) w) := by
      rw [← hc, ← testHostWord_bad hw]
      exact presentAt_region hready off w
    generalize hv : s.error .passParity false (addrOf s.base off) w = v at hpres
    have hvp : v.port = s.port := by rw [← hv]; rfl
    have hvb : v.bus = s.bus := by rw [← hv]; rfl
    have hg : (grantHost (forward (addrOf s.base off) (some w) none e v)).getD (forward (addrOf s.base off) (some w) none e v) =
        { v with port := { v.port with cur := some ⟨.host e false, addrOf s.base off, some w, none, true⟩, lastOwn := false } } := by
      have hr : v.bus.req = none := by rw [hvb]; exact h.req
      simp only [forward, grantHost, State.modBus, Option.map_some, Option.getD_some]
      rw [← hr]
    have hany : s.port.cur.any (isHostWrite (addrOf s.base off) w) = false := by simp [hp]
    have hcond : ((forward (addrOf s.base off) (some w) none e v).port.cur.isNone &&
        (forward (addrOf s.base off) (some w) none e v).bus.req.any (isHostWrite (addrOf s.base off) w)) = true := by
      simp [forward, State.modBus, hvp, hp, isHostWrite]
    unfold completeWrite
    simp only [hany, Bool.false_eq_true, if_false, hpres, hcond, if_true, hg]
    rw [endHostAccess_write none rfl]
    simp only [hostDone]
  · refine ⟨s.port.lastOwn, s, .inl rfl, ?_⟩
    have hany : s.port.cur.any (isHostWrite (addrOf s.base off) w) = true := by simp [hp, isHostWrite]
    unfold completeWrite
    rw [if_pos hany, endHostAccess_write none hp]
    simp only [settle, hp, Option.isNone_some]

/-- What a bad word's completion leaves, when its owner does not take it. -/
theorem completeWrite_bad_ignored {off : Offset} {e : OnEnd} (h : Completing s (addrOf s.base off) w e) (hw : wordOk w = false)
    (hc : ∀ u : State, regionWrite off.toNat ⟨addrOf s.base off, some w⟩ w u = forward (addrOf s.base off) (some w) none e u)
    (he : ∀ v, takeOnEnd e w v = v) :
    MemoryPut s (addrOf s.base off) w (completeWrite off w s) ∧ (completeWrite off w s).fences = s.fences ∧
      (completeWrite off w s).floor = s.floor := by
  obtain ⟨b, v, hv, heq⟩ := completeWrite_bad h hw hc
  rw [heq, he]
  have hsame : v.mem = s.mem ∧ v.fences = s.fences ∧ v.floor = s.floor ∧ v.bus = s.bus := by
    rcases hv with rfl | rfl <;> exact ⟨rfl, rfl, rfl, rfl⟩
  obtain ⟨hm, hf, hfl, hbus⟩ := hsame
  have hwaits : HostWaits (hostDone b (addrOf s.base off) w v) := .of_empty (by rw [← h.queue, ← hbus]; rfl)
  have hcalm := settleWith_calm hwaits false s
  exact ⟨settleWith_put h.memory hwaits (by rw [← hm]; rfl) _ _, hcalm.fences.trans hf, hcalm.floor.trans hfl⟩

/-- A word of good parity that completes and that its owner takes. -/
theorem completeWrite_taken {off : Offset} {e : OnEnd} (h : Completing s (addrOf s.base off) w e) (hw : wordOk w = true)
    (hc : ∀ u : State, regionWrite off.toNat ⟨addrOf s.base off, some w⟩ w u = forward (addrOf s.base off) (some w) none e u)
    (ht : ∀ b, Settled u (takeOnEnd e w (hostDone b (addrOf s.base off) w s)) ∧
      (takeOnEnd e w (hostDone b (addrOf s.base off) w s)).mem = (hostDone b (addrOf s.base off) w s).mem ∧
      (takeOnEnd e w (hostDone b (addrOf s.base off) w s)).bus = (hostDone b (addrOf s.base off) w s).bus) :
    MemoryPut s (addrOf s.base off) w (completeWrite off w s) ∧ Settled u (completeWrite off w s) := by
  obtain ⟨b, heq⟩ := completeWrite_done h hw hc
  obtain ⟨hs, hm, hb⟩ := ht b
  have hwaits : HostWaits (takeOnEnd e w (hostDone b (addrOf s.base off) w s)) := .of_empty (by rw [hb]; exact h.queue)
  rw [heq]
  exact ⟨settleWith_put h.memory hwaits hm _ _, settleWith_settled hwaits hs _ _⟩

/-! Fence entries -/

theorem setBound_eq (k : Fin 4) (d : BitVec 16) (f : Fence) : setBound k d f =
    { f with
      base := if k = 0 then f.base.extractLsb' 16 8 ++ d else if k = 1 then d.extractLsb' 0 8 ++ f.base.extractLsb' 0 16 else f.base
      mask := if k = 2 then f.mask.extractLsb' 16 8 ++ d else if k = 3 then d.extractLsb' 0 8 ++ f.mask.extractLsb' 0 16 else f.mask } := by
  fin_cases k <;> rfl

theorem fenceBound_taken (hr : HostReady s) (n : Fin 8) (k : Fin 4) (w : MWord) :
    ∃ t, exec (.fenceBoundWrite n k w) s = .next t ∧ SameMemory s t ∧
      Forwarded (addrOf s.base (fenceOff n k)) (some w) none .nothing t ∧
      (wordOk w = false → Settled (withError .passParity false (addrOf s.base (fenceOff n k)) w s) t) ∧
      (wordOk w = true → Settled { s with fences := s.fences.set n (setBound k w.data s.fences[n]) } t) := by
  refine ⟨_, rfl, ?_⟩
  cases hw : wordOk w with
  | true =>
    obtain ⟨hm, hs, hf⟩ := presentAt_forward hr (off := fenceOff n k) (v := s.modFence n (setBound k w.data))
      (by rw [testHostWord_ok hw, regionWrite, regionWord_fenceBound]; simp only [writeFenceBound, hw]; rfl) (.refl _) rfl rfl
    exact ⟨hm, hf, nofun, fun _ => hs⟩
  | false =>
    obtain ⟨hm, hs, hf⟩ := presentAt_bad hr hw (off := fenceOff n k)
      (by rw [regionWrite, regionWord_fenceBound]; simp only [writeFenceBound, hw]; rfl)
    exact ⟨hm, hf, fun _ => hs, nofun⟩

theorem zoneBound_taken (hr : HostReady s) (z : Fin 16) (k : Fin 4) (w : MWord) :
    ∃ t, exec (.zoneBoundWrite z k w) s = .next t ∧ SameMemory s t ∧
      Forwarded (addrOf s.base (zoneOff z k)) (some w) none .nothing t ∧
      (wordOk w = false → Settled (withError .passParity false (addrOf s.base (zoneOff z k)) w s) t) ∧
      (wordOk w = true →
        Settled
          { s with
            floor :=
              { s.floor with
                zones := s.floor.zones.set z
                  { s.floor.zones[z] with bounds := s.floor.zones[z].bounds.set k (clampInt 0 31 w.data.toInt).toNat } } } t) := by
  refine ⟨_, rfl, ?_⟩
  cases hw : wordOk w with
  | true =>
    obtain ⟨hm, hs, hf⟩ := presentAt_forward hr (off := zoneOff z k) (v := takeBound z k w s)
      (by rw [testHostWord_ok hw, regionWrite, regionWord_zoneBound]) (.refl _)
      (by rw [takeBound, if_pos hw]; rfl) (by rw [takeBound, if_pos hw]; rfl)
    rw [takeBound, if_pos hw] at hs
    exact ⟨hm, hf, nofun, fun _ => hs⟩
  | false =>
    obtain ⟨hm, hs, hf⟩ := presentAt_bad hr hw (off := zoneOff z k)
      (by rw [regionWrite, regionWord_zoneBound]; simp only [takeBound, hw]; rfl)
    exact ⟨hm, hf, fun _ => hs, nofun⟩

/-! Mailboxes and config blocks -/

/-- A word whose write changes a camera and is forwarded as it is, whatever its parity. -/
theorem presentAt_camera {off : Offset} {f : Camera → Camera} (hr : HostReady s)
    (hv : ∀ u : State, regionWrite off.toNat ⟨addrOf s.base off, some w⟩ w u =
      forward (addrOf s.base off) (some w) none .nothing (u.modCam c f)) :
    SameMemory s (settle s (presentAt off w s)) ∧
      Settled (withCam c (f (s.cam c)) (tested (addrOf s.base off) w s)) (settle s (presentAt off w s)) ∧
      Forwarded (addrOf s.base off) (some w) none .nothing (settle s (presentAt off w s)) := by
  have hset := (testHostWord_settled (addrOf s.base off) w s).modCam c f
  rw [tested_cam] at hset
  exact presentAt_forward hr (hv _) hset (testHostWord_bus _ s) (testHostWord_mem _ s)

theorem withCam_self (c : Cam) (s : State) : withCam c (s.cam c) s = s := by
  have hset : s.cams.set c (s.cam c) = s.cams := Vector.set_getElem_self ..
  rw [withCam, hset]

theorem configBlock_marks (hr : HostReady s) (c : Cam) (k : Fin 128) (w : MWord) :
    ∃ t, exec (.configBlockWrite c k w) s = .next t ∧ SameMemory s t ∧
      Forwarded (addrOf s.base (configOff c k)) (some w) none .nothing t ∧
      ((s.cam c).state = .offline → Settled (tested (addrOf s.base (configOff c k)) w s) t) ∧
      ((s.cam c).state ≠ .offline →
        Settled (withCam c { s.cam c with stale := true } (tested (addrOf s.base (configOff c k)) w s)) t) := by
  obtain ⟨hm, hs, hf⟩ := presentAt_camera (w := w) (c := c) (off := configOff c k)
    (f := fun k => { k with stale := k.stale || k.state != .offline }) hr
    (fun u => by rw [regionWrite, regionWord_config]; rfl)
  refine ⟨_, rfl, hm, hf, fun ho => ?_, fun ho => ?_⟩
  · have hstale : ((s.cam c).stale || (s.cam c).state != .offline) = (s.cam c).stale := by simp [ho]
    have hsame : withCam c (s.cam c) (tested (addrOf s.base (configOff c k)) w s) = tested (addrOf s.base (configOff c k)) w s := by
      rw [← tested_cam (addrOf s.base (configOff c k)) w s c, withCam_self]
    rw [hstale] at hs
    exact hsame ▸ hs
  · have hstale : ((s.cam c).stale || (s.cam c).state != .offline) = true := by simp [ho]
    rw [hstale] at hs
    exact hs

/-! Fence modes -/

theorem takeMode_good (hw : wordOk w = true) (n : Fin 8) (s : State) :
    takeMode n w s = s.modFence n fun f => { f with mode := fenceModeOf w.data } := if_pos hw

theorem takeMode_bad (hw : wordOk w = false) (n : Fin 8) (s : State) : takeMode n w s = s := if_neg (by simp [hw])

theorem fenceMode_forwarded (n : Fin 8) (w : MWord) (s u : State) :
    regionWrite (fenceOff n 4).toNat ⟨addrOf s.base (fenceOff n 4), some w⟩ w u =
      forward (addrOf s.base (fenceOff n 4)) (some w) none (.fenceMode n) u := by
  rw [regionWrite, regionWord_fenceMode]

/-- Settles O14: the owners of the watched words take them at the decode, a MODE word's at its end. -/
theorem watchedWordsAreTaken : Obligations.WatchedWordsAreTaken := by
  refine ⟨fun s w hr => ⟨fun n k => ?_, fun z k => zoneBound_taken hr z k w, fun c k => ?_, fun c k => configBlock_marks hr c k w⟩,
    fun s n w h => ?_⟩
  · obtain ⟨t, hx, hm, hf, hbad, hgood⟩ := fenceBound_taken hr n k w
    refine ⟨t, hx, hm, hf, hbad, fun hw => ?_⟩
    have hs := hgood hw
    have hfences : t.fences = s.fences.set n (setBound k w.data s.fences[n]) := hs.fences
    have hentry : t.fences[n] = setBound k w.data s.fences[n] := by simp only [hfences, Fin.getElem_fin, Vector.getElem_set_self]
    rw [hentry, setBound_eq]
    refine ⟨by rw [hfences]; exact hs, fun m hmn => ?_, rfl, rfl, rfl, rfl⟩
    simp only [hfences, Fin.getElem_fin]
    exact Vector.getElem_set_ne _ _ (fun he => hmn (Fin.ext he.symm))
  · obtain ⟨hm, hs, hf⟩ := presentAt_camera (w := w) (c := c) (off := mailboxOff c (1 + k.val))
      (f := fun m => { m with latches := m.latches.set k ⟨w.data, wordOk w⟩ }) hr
      (fun u => by rw [regionWrite, regionWord_latch]; rfl)
    exact ⟨_, rfl, hm, hf, hs⟩
  · refine ⟨_, rfl, ?_⟩
    cases hw : wordOk w with
    | true =>
      obtain ⟨hm, hs⟩ := completeWrite_taken (u := hostEnds (addrOf s.base (fenceOff n 4)) true false w
          { s with fences := s.fences.set n { s.fences[n] with mode := fenceModeOf w.data } }) h hw (fenceMode_forwarded n w s) fun b => by
        rw [takeOnEnd, takeMode_good hw]
        exact ⟨by constructor <;> first | rfl | exact fun _ => rfl, rfl, rfl⟩
      exact ⟨hm, fun _ => hs, nofun⟩
    | false =>
      obtain ⟨hm, hfences, -⟩ := completeWrite_bad_ignored h hw (fenceMode_forwarded n w s) fun v => takeMode_bad hw n v
      exact ⟨hm, nofun, fun _ => hfences⟩

end Sys2Proof.Machine

/-! Pairs: held and interrupted low halves, the probe pair and the direct slots (R138, R139, R156 to R160). -/

namespace Sys2Proof.Machine

variable {s u v t : State} {c : Cam} {w : MWord} {a : Addr}

/-! Held low halves -/

theorem regionWord_probeLow : regionWord (0xC0 : Offset).toNat = .probeLow := by decide

theorem regionWord_probeHigh : regionWord (0xC1 : Offset).toNat = .probeHigh := by decide

theorem holdLow_settled (h : Settled u v) (p : StagedPair) (a : Addr) (w : MWord) :
    Settled (hostEnds a true false w { u with bus := { u.bus with staging := some ⟨p, a, w⟩ } }) (holdLow p a w v) :=
  (h.stage (some ⟨p, a, w⟩)).endHost ..

theorem tested_bus (a : Addr) (w : MWord) (s : State) : (tested a w s).bus = s.bus := by
  simp only [tested]
  split <;> rfl

/-- A low half that is held, whatever its parity. -/
theorem presentAt_held {off : Offset} {p : StagedPair} (hr : HostReady s)
    (hv : regionWrite off.toNat ⟨addrOf s.base off, some w⟩ w (testHostWord ⟨addrOf s.base off, some w⟩ s) =
      holdLow p (addrOf s.base off) w (testHostWord ⟨addrOf s.base off, some w⟩ s)) :
    SameMemory s (settle s (presentAt off w s)) ∧
      Settled
        (hostEnds (addrOf s.base off) true false w
          { tested (addrOf s.base off) w s with bus := { s.bus with staging := some ⟨p, addrOf s.base off, w⟩ } })
        (settle s (presentAt off w s)) := by
  have hset := holdLow_settled (testHostWord_settled (addrOf s.base off) w s) p (addrOf s.base off) w
  rw [tested_bus] at hset
  exact presentAt_ended hr hv hset (by rw [← hr.queue, ← testHostWord_bus ⟨addrOf s.base off, some w⟩ s]; rfl)
    (testHostWord_mem ⟨addrOf s.base off, some w⟩ s)

theorem slotRefused_iff {k : Camera} {a : Axis} :
    slotRefused k a = true ↔ k.state = .direct ∧ k.cfg.kind = some .roaming ∧ (a = floorX ∨ a = floorY) := by
  simp [slotRefused, isRoaming, and_assoc]

theorem slotRefused_false {k : Camera} {a : Axis} (h : ¬(k.state = .direct ∧ k.cfg.kind = some .roaming ∧ (a = floorX ∨ a = floorY))) :
    slotRefused k a = false := Bool.eq_false_iff.mpr fun hr => h (slotRefused_iff.mp hr)

theorem writeSlot_low {x : HostAccess} {k : Axis} (hn : slotRefused (s.cam c) k = false) (hs : slotStaged (s.cam c) k = true) :
    writeSlot c k false x w s = holdLow (.slot c k) x.addr w s := by
  simp only [writeSlot, hn, hs, Bool.false_eq_true, if_false, Bool.not_true]

theorem slotStaged_iff {k : Camera} {a : Axis} : slotStaged k a = true ↔ enabledState k.state = true ∧ inMask k.cfg.mask a = true := by
  simp [slotStaged]

/-! Interrupted low halves -/

/-- A part that is free decodes a presented access at once, a low half held or not. -/
theorem present_of_free (hrun : s.startup = .running) (hfree : hostBusy s = false) (hq : s.bus.queue = []) (x : HostAccess) :
    present x s = decodeHost x s := by
  have hs : (s.modBus fun b => { b with queue := b.queue ++ [x] }).modBus (fun b => { b with queue := [] }) = s := by
    cases s with
    | mk a b c d e f g i j k l m n o p q r =>
      cases g with
      | mk queue held req staging ended =>
        simp only at hq
        subst hq
        rfl
  simp only [present, pumpHost, State.modBus_startup, hrun, if_true, State.modBus_bus, hq, List.nil_append, serveHost]
  rw [hs, if_neg (by simp [hfree])]

/-- The state after an access has interrupted a held low half, which is forwarded while the access is held (R158). -/
def interrupted (p : StagedPair) (b : Addr) (lo : MWord) (x : HostAccess) (s : State) : State :=
  (countInterruption p s).modBus fun bus =>
    { bus with
      staging := none, held := some x
      req := some { owner := .host .nothing true, addr := b, write := some lo, second := none, live := true } }

theorem decodeHost_interrupts {p : StagedPair} {b : Addr} {lo : MWord} {x : HostAccess} (hst : s.bus.staging = some ⟨p, b, lo⟩)
    (hx : x.write = none ∨ x.addr ≠ b + 1) (hw : x.write.all wordOk = true) : decodeHost x s = interrupted p b lo x s := by
  have hno : completesPair ⟨p, b, lo⟩ x s = false := by
    rcases hx with hx | hx
    · simp [completesPair, hx]
    · have hne : (x.addr == b + 1) = false := by simpa using hx
      simp only [completesPair, hne, Bool.and_false, Bool.false_and]
  simp only [decodeHost, testHostWord_good hw, hst, hno, Bool.false_eq_true, if_false]
  rfl

theorem countInterruption_slot_settled (c : Cam) (x : Axis) (s : State) :
    Settled (withCam c { s.cam c with blocked := Nat.min 255 ((s.cam c).blocked + 1) } s) (countInterruption (.slot c x) s) :=
  blockedWrite_settled c s

theorem interrupted_settled (h : Settled u (countInterruption p s)) (b : Addr) (lo : MWord) (x : HostAccess) :
    Settled { u with bus := { u.bus with staging := none, held := some x } } (interrupted p b lo x s) :=
  { h with staging := rfl, held := rfl }

theorem countInterruption_bus (p : StagedPair) (s : State) : (countInterruption p s).bus = s.bus := by
  unfold countInterruption
  split <;> rfl

theorem countInterruption_mem (p : StagedPair) (s : State) : (countInterruption p s).mem = s.mem := by
  unfold countInterruption
  split <;> rfl

theorem lowHalf_interrupted {p : StagedPair} {b a : Addr} {lo : MWord} {w : Option MWord} (hrun : s.startup = .running)
    (hfree : hostBusy s = false) (hq : s.bus.queue = []) (hst : s.bus.staging = some ⟨p, b, lo⟩) (hx : w = none ∨ a ≠ b + 1)
    (hw : w.all wordOk = true) :
    ∃ t, exec (hostCommand a w) s = .next t ∧ SameMemory s t ∧ t.bus.held = some ⟨a, w⟩ ∧ t.bus.staging = none ∧
      (t.bus.req = some ⟨.host .nothing true, b, some lo, none, true⟩ ∨
        t.port.cur = some ⟨.host .nothing true, b, some lo, none, true⟩) ∧
      (p = .probe → Settled { s with bus := { s.bus with staging := none, held := some ⟨a, w⟩ } } t) ∧
      (∀ (c : Cam) (x : Axis), p = .slot c x →
        Settled
          (withCam c { s.cam c with blocked := Nat.min 255 ((s.cam c).blocked + 1) }
            { s with bus := { s.bus with staging := none, held := some ⟨a, w⟩ } }) t) := by
  refine ⟨_, exec_hostCommand a w s, ?_⟩
  rw [present_of_free hrun hfree hq, decodeHost_interrupts (x := ⟨a, w⟩) hst hx hw]
  have hwaits : HostWaits (interrupted p b lo ⟨a, w⟩ s) := .of_empty (by
    rw [← hq, ← countInterruption_bus p s]; rfl)
  have hcalm := settle_calm hwaits s
  refine ⟨settle_same hwaits (countInterruption_mem p s) s, hcalm.held, hcalm.staging, settleWith_forwarded rfl hwaits _ s,
    fun hp => ?_, fun c x hp => ?_⟩
  · subst hp
    exact (interrupted_settled (p := .probe) (.refl s) b lo ⟨a, w⟩).trans hcalm.toSettled
  · subst hp
    exact (interrupted_settled (countInterruption_slot_settled c x s) b lo ⟨a, w⟩).trans hcalm.toSettled

theorem interrupting_classed {b : Addr} {lo : MWord} {off : Offset} {answer : Option MWord} (hf : MemoryForm u) (hq : u.bus.queue = [])
    (hheld : u.bus.held = some ⟨addrOf u.base off, none⟩) (hp : u.port.cur = some ⟨.host .nothing true, b, some lo, none, true⟩) :
    ∃ t, exec (.hostAccessEnd answer) u = .next t ∧ MemoryPut u b lo t ∧ Settled { u with bus := { u.bus with held := none } } t ∧
      Forwarded (addrOf u.base off) none none .nothing t := by
  have hend : endHostAccess answer u =
      forward (addrOf u.base off) none none .nothing (((u.write b lo).freePort).modBus fun bus => { bus with held := none }) := by
    have hresume : (((u.write b lo).freePort)).bus.held = some ⟨addrOf u.base off, none⟩ := hheld
    simp only [endHostAccess, hp, endWrite, landWrite, hostEnded, if_true, resumeHeld, hresume, classify]
    have hbase : ((((u.write b lo).freePort)).modBus fun bus => { bus with held := none }).base = u.base := rfl
    rw [hbase, offsetOf_addrOf]
  have hexec : exec (.hostAccessEnd answer) u = .next (settle u (endHostAccess answer u)) := by
    have ha := portAccess_of hp (p := hostOwner) rfl
    show execHostAccessEnd answer u = _
    rw [execHostAccessEnd, ha]

  have hempty : HostWaits (forward (addrOf u.base off) none none .nothing
      (((u.write b lo).freePort).modBus fun bus => { bus with held := none })) := .of_empty hq
  refine ⟨_, hexec, ?_⟩
  rw [hend]
  exact ⟨settle_put hf hempty rfl u,
    settle_settled hempty (forward_settled (by constructor <;> first | rfl | exact fun _ => rfl) ..) u, settleWith_forwarded rfl hempty _ u⟩

/-- Settles O15: a low half of a staged pair is held; what comes next, if it is not the high half, is held in its turn while the low half is
forwarded. -/
theorem lowHalvesAreHeldOrInterrupted : Obligations.LowHalvesAreHeldOrInterrupted := by
  refine ⟨fun s w hr => ⟨⟨_, rfl, ?_⟩, fun c a he hm hn => ⟨_, rfl, ?_⟩⟩,
    fun s p b a lo w hrun hfree hq hst hx hw => ⟨lowHalf_interrupted hrun hfree hq hst hx hw,
      fun u off answer hf hqu _ hheld hp => interrupting_classed hf hqu hheld hp⟩⟩
  · exact presentAt_held hr (by rw [regionWrite, regionWord_probeLow])
  · refine presentAt_held hr ?_
    rw [regionWrite, regionWord_slotLow]
    exact writeSlot_low (by rw [testHostWord_cam]; exact slotRefused_false hn) (by rw [testHostWord_cam]; exact slotStaged_iff.mpr ⟨he, hm⟩)

end Sys2Proof.Machine

/-! Pairs that are completed: the probe pair and the direct slots (R138, R156, R157, R160). -/

namespace Sys2Proof.Machine

variable {s u v t : State} {c : Cam} {w : MWord} {a : Addr}

/-! The high half of a held pair -/

theorem testHostWord_staging (x : HostAccess) (s : State) : (testHostWord x s).bus.staging = s.bus.staging := by rw [testHostWord_bus]

/-- The high half of the held pair is classed at its decode, the low half still held (R157). -/
theorem presentAt_completes {off : Offset} {st : Staged} (hrun : s.startup = .running) (hfree : hostBusy s = false)
    (hq : s.bus.queue = []) (hst : s.bus.staging = some st)
    (hc : completesPair st ⟨addrOf s.base off, some w⟩ (testHostWord ⟨addrOf s.base off, some w⟩ s) = true) :
    presentAt off w s = regionWrite off.toNat ⟨addrOf s.base off, some w⟩ w (testHostWord ⟨addrOf s.base off, some w⟩ s) := by
  have hclass := classify_region off w (testHostWord ⟨addrOf s.base off, some w⟩ s)
  rw [testHostWord_base] at hclass
  rw [presentAt, present_of_free hrun hfree hq]
  simp only [decodeHost, testHostWord_staging, hst, hc, if_true]
  exact hclass

/-- A high half with no low half held is classed at its decode. -/
theorem hostReady_of_free (hrun : s.startup = .running) (hfree : hostBusy s = false) (hq : s.bus.queue = [])
    (hst : s.bus.staging = none) : HostReady s := ⟨hrun, hfree, hq, hst⟩

/-- A host write decoded by its class that is forwarded, perhaps as a pair. -/
theorem settle_presentAt {off : Offset} {b : Addr} {x y : Option MWord} {e : OnEnd} (hq : s.bus.queue = [])
    (hp : presentAt off w s = forward b x y e v) (hs : Settled u v) (hb : v.bus.queue = s.bus.queue) (hm : v.mem = s.mem) :
    SameMemory s (settle s (presentAt off w s)) ∧ Settled u (settle s (presentAt off w s)) ∧
      Forwarded b x y e (settle s (presentAt off w s)) := by
  rw [hp]
  exact settle_forward hs (hb.trans hq) hm s b x y e

/-! The probe pair -/

theorem addrOf_probeHigh (base : BitVec 2) : addrOf base 0xC1 = addrOf base 0xC0 + 1 := by revert base; decide

theorem completesPair_probe (hi : MWord) (lo : MWord) (s v : State) :
    completesPair ⟨.probe, addrOf s.base 0xC0, lo⟩ ⟨addrOf s.base 0xC1, some hi⟩ v = true := by
  have h : (addrOf s.base 0xC1 == addrOf s.base 0xC0 + 1) = true := by rw [addrOf_probeHigh]; exact beq_self_eq_true _
  simp only [completesPair, h, Option.isSome_some, Bool.and_self]

theorem probeResult_area (s : State) (a : Addr) : (probeResult s a).extractLsb' 8 8 =
    BitVec.ofNat 8 (match offsetOf s.base a with | some off => areaCode off | none => 0) := by
  unfold probeResult
  dsimp only
  generalize BitVec.ofNat 8 _ = x
  generalize BitVec.extractLsb' 0 8 _ = y
  ext i hi
  simp only [BitVec.getElem_extractLsb', BitVec.getLsbD_append]
  simp [hi]

theorem probeResult_bit (s : State) (a : Addr) (n : Fin 8) : (probeResult s a).getLsbD n.val = true ↔ Matches s.fences[n] a := by
  have hn := n.isLt
  have hbit : (probeResult s a).getLsbD n.val = (boolBits fun n : Fin 8 => fenceMatch s.fences[n] a).getLsbD n.val := by
    unfold probeResult
    simp only [BitVec.getLsbD_append, BitVec.getLsbD_extractLsb', hn, if_true, decide_true, Bool.true_and, Nat.zero_add]
  rw [hbit, boolBits_getLsbD _ _ (by omega)]
  exact ⟨fun ⟨_, h⟩ => fenceMatch_iff.mp h, fun h => ⟨hn, fenceMatch_iff.mpr h⟩⟩

theorem takeProbe_good {st : Staged} {hi : MWord} (hlo : wordOk st.word = true) (hhi : wordOk hi = true) (s : State) :
    takeProbe st hi s = forward st.addr (some (goodWord st.word.data)) (some (goodWord hi.data)) .nothing
      ((s.modBus fun b => { b with staging := none }).modStat fun w =>
        { w with probe := probeResult s (pairAddr st.word.data hi.data), probeDue := true }) := by
  simp only [takeProbe, hlo, hhi, Bool.and_self, if_true]
  rfl

theorem takeProbe_bad {st : Staged} {hi : MWord} (h : (wordOk st.word && wordOk hi) = false) (s : State) :
    takeProbe st hi s = forward st.addr (some (poisonWord st.word.data)) (some (poisonWord hi.data)) .nothing
      (s.modBus fun b => { b with staging := none }) := by
  simp only [takeProbe, h]
  rfl

theorem writeProbeHigh_staged {st : Staged} (h : s.bus.staging = some st) (x : HostAccess) (w : MWord) :
    writeProbeHigh x w s = takeProbe st w s := by simp only [writeProbeHigh, h]

theorem tested_stage_settled (a : Addr) (w : MWord) (s : State) :
    Settled { tested a w s with bus := { s.bus with staging := none } }
      ((testHostWord ⟨a, some w⟩ s).modBus fun b => { b with staging := none }) := by
  have h := (testHostWord_settled a w s).stage none
  rwa [tested_bus] at h

/-- Settles O16: the pair is judged as it is completed; with both halves good the result is read off the fences and the address. -/
theorem probePairFormsTheResult : Obligations.ProbePairFormsTheResult := by
  intro s lo hi hrun hfree hq
  refine ⟨fun hst => ⟨_, rfl, ?_⟩, fun hst => ⟨_, rfl, ?_⟩⟩
  · have hclass := presentAt_completes hrun hfree hq hst (completesPair_probe hi lo s (testHostWord ⟨addrOf s.base 0xC1, some hi⟩ s))
    rw [regionWrite, regionWord_probeHigh] at hclass
    have hstaged := writeProbeHigh_staged ((testHostWord_staging ⟨addrOf s.base 0xC1, some hi⟩ s).trans hst) ⟨addrOf s.base 0xC1, some hi⟩ hi
    have hpresent := hclass.trans hstaged
    by_cases hok : wordOk lo = true ∧ wordOk hi = true
    · obtain ⟨hlo, hhi⟩ := hok
      rw [testHostWord_ok hhi, takeProbe_good hlo hhi] at hpresent
      obtain ⟨hm, hs, hf⟩ := settle_presentAt hq hpresent (u := { s with bus := { s.bus with staging := none }, stat := { s.stat with probe := probeResult s (hi.data.extractLsb' 0 8 ++ lo.data) } })
        (by constructor <;> first | rfl | exact fun _ => rfl) rfl rfl
      have hprobe := hs.probe
      dsimp only at hprobe
      refine ⟨hm, fun _ _ => ⟨?_, fun n => ?_, fun off hoff => ?_, fun hout => ?_, hf⟩, fun hbad => ?_⟩
      · rw [hprobe]; exact hs
      · rw [hprobe]; exact probeResult_bit s _ n
      · rw [hprobe, probeResult_area, hoff, offsetOf_addrOf]
      · rw [hprobe, probeResult_area, offsetOf_eq_none_iff.mpr hout]; rfl
      · rcases hbad with hbad | hbad
        · rw [hlo] at hbad; cases hbad
        · rw [hhi] at hbad; cases hbad
    · have hbad : (wordOk lo && wordOk hi) = false := by
        rw [Bool.eq_false_iff, ne_eq, Bool.and_eq_true]; exact hok
      rw [takeProbe_bad hbad] at hpresent
      obtain ⟨hm, hs, hf⟩ := settle_presentAt hq hpresent (tested_stage_settled _ hi s)
        (by rw [← testHostWord_bus ⟨addrOf s.base 0xC1, some hi⟩ s]; rfl) (testHostWord_mem _ s)
      exact ⟨hm, fun hlo hhi => absurd ⟨hlo, hhi⟩ hok, fun _ => ⟨hs, hf⟩⟩
  · have hr := hostReady_of_free hrun hfree hq hst
    refine presentAt_forward hr ?_ (testHostWord_settled _ hi s) (testHostWord_bus _ s) (testHostWord_mem _ s)
    rw [regionWrite, regionWord_probeHigh]
    simp only [writeProbeHigh, testHostWord_staging, hst]

/-! Direct slot pairs -/

theorem addrOf_slotHigh (base : BitVec 2) (c : Cam) (x : Axis) :
    addrOf base (frameOff c (49 + 2 * x.val)) = addrOf base (frameOff c (48 + 2 * x.val)) + 1 := by revert base c x; decide

theorem completesPair_slot {x : Axis} (hn : slotRefused (v.cam c) x = false) (lo hi : MWord) (s : State) :
    completesPair ⟨.slot c x, addrOf s.base (frameOff c (48 + 2 * x.val)), lo⟩ ⟨addrOf s.base (frameOff c (49 + 2 * x.val)), some hi⟩ v =
      true := by
  have h : (addrOf s.base (frameOff c (49 + 2 * x.val)) == addrOf s.base (frameOff c (48 + 2 * x.val)) + 1) = true := by
    rw [addrOf_slotHigh]; exact beq_self_eq_true _
  simp only [completesPair, h, hn, Option.isSome_some, Bool.and_self, Bool.not_false]

theorem writeSlot_high {x : Axis} {st : Staged} (hn : slotRefused (s.cam c) x = false) (hs : slotStaged (s.cam c) x = true)
    (hst : s.bus.staging = some st) (h : HostAccess) (w : MWord) : writeSlot c x true h w s = takeSlot c x st w s := by
  simp only [writeSlot, hn, hs, hst, Bool.false_eq_true, if_false, Bool.not_true, if_true]

theorem writeSlot_high_unstaged {x : Axis} {st : Staged} (hn : slotRefused (s.cam c) x = false) (hs : slotStaged (s.cam c) x = false)
    (hst : s.bus.staging = some st) (h : HostAccess) (w : MWord) :
    writeSlot c x true h w s = forward st.addr (some st.word) (some w) .nothing (s.modBus fun b => { b with staging := none }) := by
  simp only [writeSlot, hn, hs, hst, Bool.false_eq_true, if_false, Bool.not_false, if_true]

theorem writeSlot_high_alone {x : Axis} (hn : slotRefused (s.cam c) x = false) (hs : slotStaged (s.cam c) x = true)
    (hst : s.bus.staging = none) (h : HostAccess) (w : MWord) :
    writeSlot c x true h w s = forward h.addr (some w) none .nothing (s.blockedWrite c) := by
  simp only [writeSlot, hn, hs, hst, Bool.false_eq_true, if_false, Bool.not_true, if_true]

theorem writeSlot_high_alone_unstaged {x : Axis} (hn : slotRefused (s.cam c) x = false) (hs : slotStaged (s.cam c) x = false)
    (hst : s.bus.staging = none) (h : HostAccess) (w : MWord) : writeSlot c x true h w s = forward h.addr (some w) none .nothing s := by
  simp only [writeSlot, hn, hs, hst, Bool.false_eq_true, if_false, Bool.not_false, if_true]

/-- The direct target a good pair of axis x leaves in a camera (R138). -/
def steerSlot (x : Axis) (p : Int) (k : Camera) : Camera :=
  { k with direct := if k.state = .direct then k.direct.map fun d => d.set x p else k.direct }

theorem modCam_steerSlot (h : (v.cam c).state = .direct) (x : Axis) (p : Int) :
    v.modCam c (steerSlot x p) = v.modCam c fun k => { k with direct := k.direct.map fun d => d.set x p } := by
  rw [State.modCam, State.modCam, steerSlot, if_pos h]

theorem takeSlot_bad {x : Axis} {st : Staged} {hi : MWord} (h : (wordOk st.word && wordOk hi) = false) (s : State) :
    takeSlot c x st hi s =
      forward st.addr
        (some (poisonWord (lowHalf (clampInt (s.cam c).cfg.axes[x].min (s.cam c).cfg.axes[x].max (pairInt st.word.data hi.data)))))
        (some (poisonWord (highHalf (clampInt (s.cam c).cfg.axes[x].min (s.cam c).cfg.axes[x].max (pairInt st.word.data hi.data)))))
        .nothing (s.modBus fun b => { b with staging := none }) := by
  simp only [takeSlot, h, Bool.false_and]
  rfl

theorem takeSlot_good {x : Axis} {st : Staged} {hi : MWord} (h : (wordOk st.word && wordOk hi) = true) (s : State) :
    ∃ v, takeSlot c x st hi s =
        forward st.addr
          (some (goodWord (lowHalf (clampInt (s.cam c).cfg.axes[x].min (s.cam c).cfg.axes[x].max (pairInt st.word.data hi.data)))))
          (some (goodWord (highHalf (clampInt (s.cam c).cfg.axes[x].min (s.cam c).cfg.axes[x].max (pairInt st.word.data hi.data)))))
          .nothing v ∧
      Settled
        (withCam c (steerSlot x (clampInt (s.cam c).cfg.axes[x].min (s.cam c).cfg.axes[x].max (pairInt st.word.data hi.data)) (s.cam c))
          { s with bus := { s.bus with staging := none } }) v ∧
      v.bus.queue = s.bus.queue ∧ v.mem = s.mem := by
  have hstaged : Settled { s with bus := { s.bus with staging := none } } (s.modBus fun b => { b with staging := none }) :=
    (Settled.refl s).stage none
  by_cases hd : (s.cam c).state = .direct
  · refine ⟨_, ?_, hstaged.modCam c (steerSlot x _), rfl, rfl⟩
    rw [modCam_steerSlot (v := s.modBus fun b => { b with staging := none }) hd]
    simp only [takeSlot, h, hd, Bool.true_and, beq_self_eq_true, if_true]
    rfl
  · have hsteer : ∀ p, withCam c (steerSlot x p (s.cam c)) { s with bus := { s.bus with staging := none } } =
        { s with bus := { s.bus with staging := none } } := fun p => by
      rw [steerSlot, if_neg hd]
      exact withCam_self c _
    refine ⟨s.modBus fun b => { b with staging := none }, ?_, by rw [hsteer]; exact hstaged, rfl, rfl⟩
    have hne : ((s.cam c).state == CamState.direct) = false := by simpa using hd
    simp only [takeSlot, h, hne, Bool.and_false, Bool.false_eq_true, if_false]
    rfl

/-- Settles O17: the pair is judged as its high half completes it, by the camera's state and the axis's presence. -/
theorem slotPairIsClamped : Obligations.SlotPairIsClamped := by
  intro s u c a lo hi v hrun hfree hq hn hv hu
  subst hu
  have hn := slotRefused_false hn
  set x : HostAccess := ⟨addrOf s.base (frameOff c (49 + 2 * a.val)), some hi⟩ with hx
  have hcam : (testHostWord x s).cam c = s.cam c := testHostWord_cam ..
  have hn' : slotRefused ((testHostWord x s).cam c) a = false := hcam.symm ▸ hn
  refine ⟨fun hst => ⟨_, rfl, ?_⟩, fun hst => ⟨_, rfl, ?_⟩⟩
  · have hst' : (testHostWord x s).bus.staging = _ := (testHostWord_staging x s).trans hst
    have hclass := presentAt_completes hrun hfree hq hst (completesPair_slot (v := testHostWord x s) hn' lo hi s)
    rw [regionWrite, regionWord_slotHigh] at hclass
    have hqueue : (testHostWord x s).bus.queue = s.bus.queue := congrArg HostBus.queue (testHostWord_bus x s)
    cases hon : slotStaged (s.cam c) a with
    | true =>
      obtain ⟨he, hm⟩ := slotStaged_iff.mp hon
      rw [← hcam] at hon
      replace hclass := hclass.trans (writeSlot_high hn' hon hst' x hi)
      cases hok : wordOk lo && wordOk hi with
      | true =>
        obtain ⟨hlo, hhi⟩ := Bool.and_eq_true_iff.mp hok
        rw [hx, testHostWord_ok hhi] at hclass
        obtain ⟨v', htake, hset, hb, hmem⟩ := takeSlot_good (c := c) (x := a) (st := ⟨.slot c a, _, lo⟩) (hi := hi) hok s
        obtain ⟨hm', hs, hf⟩ := settle_presentAt hq (hclass.trans htake) hset hb hmem
        subst hv
        exact ⟨hm', fun _ _ _ _ => ⟨hs, hf⟩, fun _ _ hbad => absurd hbad (by simp [hlo, hhi]), fun hoff => absurd hoff (by simp [he, hm])⟩
      | false =>
        rw [takeSlot_bad hok, hcam] at hclass
        obtain ⟨hm', hs, hf⟩ := settle_presentAt hq hclass (tested_stage_settled _ hi s) hqueue (testHostWord_mem _ s)
        subst hv
        exact ⟨hm', fun _ _ hlo hhi => absurd hok (by simp [hlo, hhi]), fun _ _ _ => ⟨hs, hf⟩, fun hoff => absurd hoff (by simp [he, hm])⟩
    | false =>
      have hoff : enabledState (s.cam c).state = true → inMask (s.cam c).cfg.mask a = true → False := fun he hm =>
        absurd (slotStaged_iff.mpr ⟨he, hm⟩) (by simp [hon])
      rw [← hcam] at hon
      obtain ⟨hm', hs, hf⟩ := settle_presentAt hq (hclass.trans (writeSlot_high_unstaged hn' hon hst' x hi))
        (tested_stage_settled _ hi s) hqueue (testHostWord_mem _ s)
      exact ⟨hm', fun he hm => (hoff he hm).elim, fun he hm => (hoff he hm).elim, fun _ => ⟨hs, hf⟩⟩
  · have hst' : (testHostWord x s).bus.staging = none := (testHostWord_staging x s).trans hst
    have hset : Settled (tested (addrOf s.base (frameOff c (49 + 2 * a.val))) hi s) (testHostWord x s) := testHostWord_settled ..
    have hqueue := congrArg HostBus.queue (testHostWord_bus x s)
    have hclass := presentAt_region (w := hi) (off := frameOff c (49 + 2 * a.val)) (hostReady_of_free hrun hfree hq hst)
    rw [regionWrite, regionWord_slotHigh] at hclass
    cases hon : slotStaged (s.cam c) a with
    | true =>
      obtain ⟨he, hm⟩ := slotStaged_iff.mp hon
      rw [← hcam] at hon
      replace hset := hset.modCam c countBlocked
      rw [tested_cam] at hset
      obtain ⟨hm', hs, hf⟩ := settle_presentAt hq (hclass.trans (writeSlot_high_alone hn' hon hst' x hi)) hset hqueue
        (testHostWord_mem x s)
      exact ⟨hm', hf, fun _ _ => hs, fun hoff => absurd hoff (by simp [he, hm])⟩
    | false =>
      have hoff : enabledState (s.cam c).state = true → inMask (s.cam c).cfg.mask a = true → False := fun he hm =>
        absurd (slotStaged_iff.mpr ⟨he, hm⟩) (by simp [hon])
      rw [← hcam] at hon
      obtain ⟨hm', hs, hf⟩ := settle_presentAt hq (hclass.trans (writeSlot_high_alone_unstaged hn' hon hst' x hi)) hset hqueue
        (testHostWord_mem x s)
      exact ⟨hm', hf, fun he hm => (hoff he hm).elim, fun _ => hs⟩

end Sys2Proof.Machine

/-! Host writes to the shot store (R91, R95). -/

namespace Sys2Proof.Machine

variable {s u v t : State} {c : Cam} {w : MWord} {a : Addr}

/-! The record a host write falls on -/

theorem shotStore_toNat (k : BitVec 14) : (1#2 ++ k : BitVec 16).toNat = 0x4000 + k.toNat := by
  have hk := k.isLt
  rw [BitVec.toNat_append]
  simp only [BitVec.toNat_ofNat]
  rw [show (1 % 2 ^ 2) <<< 14 = 2 ^ 14 * 1 by decide, ← Nat.two_pow_add_eq_or_of_lt hk]

theorem shotOff_record (c : Cam) {n : Nat} (hn : n < 64) : (shotOff c n 0).toNat / 32 = 512 + (64 * c.val + n) := by
  have hc := c.isLt
  rw [shotOff, BitVec.toNat_ofNat, Nat.mod_eq_of_lt (by omega)]
  omega

theorem sameRecord_iff (k : BitVec 14) (c : Cam) {n : Nat} (hn : n < 64) :
    (1#2 ++ k : BitVec 16).toNat / 32 = (shotOff c n 0).toNat / 32 ↔ k.toNat / 32 = 64 * c.val + n := by
  rw [shotOff_record c hn, shotStore_toNat]
  omega

theorem orphanPort_cases (p : Owner → Bool) (s : State) :
    ∃ q, s.orphanPort p = { s with port := q } ∧ q.timeout = s.port.timeout ∧
      (q.cur.any fun a => hostOwner a.owner) = s.port.cur.any fun a => hostOwner a.owner := by
  unfold State.orphanPort
  split
  · next a ha =>
    split
    · exact ⟨_, rfl, rfl, by rw [ha]; rfl⟩
    · exact ⟨_, rfl, rfl, rfl⟩
  · exact ⟨_, rfl, rfl, rfl⟩

theorem Work.capture_of_ne {work : Work} (h : work ≠ .fetch) : ∃ d m r f, work = .capture d m r f := by
  cases work with
  | fetch => exact absurd rfl h
  | capture d m r f => exact ⟨d, m, r, f, rfl⟩

/-- A host write to the record of a capture in flight (R95). -/
theorem shotOverlap_capture {op : ShotOp} {off : Nat} (hop : s.shot.op = some op)
    (hoff : off / 32 = (shotOff op.req.cam op.req.shot 0).toNat / 32) (hwork : op.req.work ≠ .fetch) :
    shotOverlap off s = s.modShot fun e => { e with op := some { op with overlap := true } } := by
  obtain ⟨d, m, r, f, hcap⟩ := Work.capture_of_ne hwork
  simp only [shotOverlap, hop, hoff, if_true, hcap]

/-- A host write to the record of a fetch in flight (R91). -/
theorem shotOverlap_fetch {op : ShotOp} {off : Nat} (hop : s.shot.op = some op)
    (hoff : off / 32 = (shotOff op.req.cam op.req.shot 0).toNat / 32) (hwork : op.req.work = .fetch) :
    shotOverlap off s =
      if op.attempt < 4 then
        (s.orphanPort shotOwner).modShot fun e => { e with op := some { op with words := [], attempt := op.attempt + 1 } }
      else failFetch op.req.cam .shotUnstable (s.orphanPort shotOwner) := by
  simp only [shotOverlap, hop, hoff, if_true, hwork]

theorem shotOverlap_miss {op : ShotOp} {off : Nat} (hop : s.shot.op = some op)
    (hoff : off / 32 ≠ (shotOff op.req.cam op.req.shot 0).toNat / 32) : shotOverlap off s = s := by
  simp only [shotOverlap, hop, if_neg hoff]

theorem shotOverlap_none {off : Nat} (hop : s.shot.op = none) : shotOverlap off s = s := by
  simp only [shotOverlap, hop]

theorem failFetch_touches (c : Cam) (code : Code) (s : State) :
    Touches c (s.modShot fun e => { e with op := none }) (failFetch c code s) := by
  unfold failFetch
  dsimp only
  split
  · exact (endActive_touches ..).trans (takeHead_touches ..)
  · exact .refl ..

theorem shotOverlap_bus (off : Nat) (s : State) : (shotOverlap off s).bus = s.bus ∧ (shotOverlap off s).mem = s.mem := by
  cases hop : s.shot.op with
  | none => rw [shotOverlap_none hop]; exact ⟨rfl, rfl⟩
  | some op =>
    by_cases hoff : off / 32 = (shotOff op.req.cam op.req.shot 0).toNat / 32
    · obtain ⟨q, hq, -, -⟩ := orphanPort_cases shotOwner s
      by_cases hwork : op.req.work = .fetch
      · rw [shotOverlap_fetch hop hoff hwork, hq]
        split
        · exact ⟨rfl, rfl⟩
        · have h := failFetch_touches op.req.cam .shotUnstable { s with port := q }
          exact ⟨h.bus, h.mem⟩
      · rw [shotOverlap_capture hop hoff hwork]; exact ⟨rfl, rfl⟩
    · rw [shotOverlap_miss hop hoff]; exact ⟨rfl, rfl⟩

/-- A fetch whose cue is the last of its camera ends it (R90). -/
theorem failFetch_last {q : Cue} {code : Code} (hs : (s.cam c).state = .fetching) (ha : (s.cam c).active = some q)
    (hq : (s.cam c).queue = []) : (failFetch c code s).cam c = cueEnded q code 0 (s.cam c) := by
  have hend := endActive_eq (s := s.modShot fun e => { e with op := none }) (c := c) (q := q) ha code 0
  have hcam : (endActive c code 0 (s.modShot fun e => { e with op := none })).cam c = cueEnded q code 0 (s.cam c) := by
    rw [hend]; exact cam_modCam_self ..
  have hstate : ((s.modShot fun e => { e with op := none }).cam c).state = .fetching := hs
  simp only [failFetch, hstate, if_true]
  rw [takeHead_of_empty (by rw [hcam]; exact hq), hcam]

theorem testHostWord_shot (a : Addr) (w : MWord) (s : State) : (testHostWord ⟨a, some w⟩ s).shot = s.shot := by
  simp only [testHostWord]
  split <;> rfl

/-- The Shot Engine is given another operation, the port's access perhaps given up. -/
theorem Settled.reshoot (h : Settled u v) (e : ShotEngine) {q : Port} (hq : q.timeout = v.port.timeout) :
    Settled { u with shot := e } { v with port := q, shot := e } :=
  { h with timeout := hq.trans h.timeout, shot := fun _ => rfl }

/-- Settles O18: what a write to the shot store does by the record it falls on. -/
theorem shotStoreWriteOverlaps : Obligations.ShotStoreWriteOverlaps := by
  intro s k w hr hquiet
  set x : HostAccess := ⟨addrOf s.base (1#2 ++ k), some w⟩ with hx
  set v := testHostWord x s with hv
  set off := (1#2 ++ k : BitVec 16).toNat with hoffn
  obtain ⟨hbus, hmem⟩ := shotOverlap_bus off v
  rw [hv, testHostWord_bus] at hbus
  rw [hv, testHostWord_mem] at hmem
  have htest : Settled (tested (addrOf s.base (1#2 ++ k)) w s) v := testHostWord_settled ..
  have hshot : v.shot = s.shot := testHostWord_shot ..
  have hforward : ∀ u, Settled u (shotOverlap off v) → _ := fun u hu =>
    presentAt_forward hr (by rw [regionWrite, regionWord_shot]) hu hbus hmem
  obtain ⟨hm, hself, hf⟩ := hforward _ (.refl _)
  refine ⟨_, rfl, hm, hf, fun hmiss => ?_, fun op hop hlt hhit => ⟨fun hwork => ?_, fun hwork hatt => ?_, fun q hwork hatt hw hs ha hq => ?_⟩⟩
  · refine (hforward _ ?_).2.1
    rw [← hshot] at hmiss
    rcases hmiss with hnone | ⟨op, hop, hlt, hne⟩
    · rw [shotOverlap_none hnone]; exact htest
    · rw [shotOverlap_miss hop (mt (sameRecord_iff k _ hlt).mp hne)]; exact htest
  all_goals
    have hop' : v.shot.op = some op := hshot.symm ▸ hop
    have hoff := (sameRecord_iff k op.req.cam hlt).mpr hhit
  · refine (hforward _ ?_).2.1
    rw [shotOverlap_capture hop' hoff hwork, State.modShot, hshot]
    exact htest.reshoot _ rfl
  · refine (hforward _ ?_).2.1
    obtain ⟨p, hp, htimeout, -⟩ := orphanPort_cases shotOwner v
    rw [shotOverlap_fetch hop' hoff hwork, if_pos hatt, hp, State.modShot]
    dsimp only
    rw [hshot]
    exact htest.reshoot _ htimeout
  · obtain ⟨p, hp, -, -⟩ := orphanPort_cases shotOwner v
    have hcam : ({ v with port := p } : State).cam op.req.cam = s.cam op.req.cam := testHostWord_cam ..
    refine (hself.cam _).trans ?_
    rw [shotOverlap_fetch hop' hoff hwork, if_neg (by omega), hp]
    rw [failFetch_last (q := q) (hcam.symm ▸ hs) (hcam.symm ▸ ha) (hcam.symm ▸ hq), hcam]

end Sys2Proof.Machine

/-! Reads and passed writes, and the fault of a bad word (R151, R152, R159). -/

namespace Sys2Proof.Machine

variable {s u v t : State} {c : Cam} {w : MWord} {a : Addr}

/-! Flags that stand, with the capture record -/

/-- No flag is cleared, and the capture record and the presented accesses stand. -/
structure Raises (s t : State) : Prop where
  capture : t.stat.capture = s.stat.capture
  flags : ∀ i, s.stat.flags.getLsbD i = true → t.stat.flags.getLsbD i = true
  queue : t.bus.queue = s.bus.queue

theorem Raises.of_eq (hc : t.stat.capture = s.stat.capture) (hf : t.stat.flags = s.stat.flags) (hq : t.bus.queue = s.bus.queue) :
    Raises s t := ⟨hc, fun _ h => hf ▸ h, hq⟩

theorem Raises.refl (s : State) : Raises s s := .of_eq rfl rfl rfl

theorem Raises.trans (h : Raises s t) (k : Raises t u) : Raises s u :=
  ⟨k.capture.trans h.capture, fun i hi => k.flags i (h.flags i hi), k.queue.trans h.queue⟩

theorem flag_raises (f : BitVec 12) (s : State) : Raises s (s.flag f) :=
  ⟨rfl, fun i hi => by
    show (s.stat.flags ||| f).getLsbD i = true
    rw [BitVec.getLsbD_or, hi, Bool.true_or], rfl⟩

theorem modCam_raises (c : Cam) (f : Camera → Camera) (s : State) : Raises s (s.modCam c f) := .of_eq rfl rfl rfl

theorem paint_raises (f : Fin 32 → Fin 32 → Cell → Cell) (s : State) : Raises s (s.paint f) := by
  constructor <;> simp [State.paint]

theorem beginMove_raises (c : Cam) (s : State) : Raises s (beginMove c s) := modCam_raises c _ s

theorem recordResult_raises (c : Cam) (tag : BitVec 8) (kind : BitVec 4) (code : Code) (detail : BitVec 16) (s : State) :
    Raises s (recordResult c tag kind code detail s) := (modCam_raises c _ s).trans (flag_raises _ _)

theorem endActive_raises (c : Cam) (code : Code) (detail : BitVec 16) (s : State) : Raises s (endActive c code detail s) := by
  unfold endActive; dsimp only
  split
  · exact (recordResult_raises c _ _ _ _ s).trans (modCam_raises c _ _)
  · exact modCam_raises c _ _

theorem tryClaim_raises (c : Cam) (s : State) : Raises s (tryClaim c s).1 := by
  obtain ⟨_, h⟩ | ⟨r, _, ⟨_, h⟩ | ⟨_, _, h⟩ | ⟨_, _, h⟩⟩ := tryClaim_cases c s <;> rw [h]
  · exact .refl s
  · exact endActive_raises c _ _ s
  · exact .refl s
  · exact ((paint_raises _ s).trans (modCam_raises c _ _)).trans (beginMove_raises c _)

theorem reasonsChanged_raises (c : Cam) (s : State) : Raises s (reasonsChanged c s).1 := by
  unfold reasonsChanged; dsimp only
  split
  · split
    · exact tryClaim_raises c s
    · exact beginMove_raises c s
  · exact .refl s

theorem planActive_raises (c : Cam) (req : MoveRequest) (s : State) : Raises s (planActive c req s).1 := by
  unfold planActive; dsimp only
  split
  · exact endActive_raises c _ _ s
  · exact endActive_raises c _ _ s
  · split
    · exact endActive_raises c _ _ s
    · exact (modCam_raises c _ s).trans (reasonsChanged_raises c _)

theorem takeHeadN_raises (n : Nat) (c : Cam) (s : State) : Raises s (takeHeadN n c s) := by
  induction n generalizing s with
  | zero => exact .refl s
  | succ n ih =>
    unfold takeHeadN; dsimp only
    split
    · split
      · exact .of_eq rfl rfl rfl
      · split
        · exact ((modCam_raises c _ s).trans (endActive_raises c _ _ _)).trans (ih _)
        · split
          · exact ((modCam_raises c _ s).trans (planActive_raises c _ _)).trans (ih _)
          · exact (modCam_raises c _ s).trans (planActive_raises c _ _)
    · exact .refl s

theorem failFetch_raises (c : Cam) (code : Code) (s : State) : Raises s (failFetch c code s) := by
  unfold failFetch
  dsimp only
  split
  · exact Raises.trans (t := s.modShot fun e => { e with op := none }) (.of_eq rfl rfl rfl)
      ((endActive_raises ..).trans (takeHeadN_raises ..))
  · exact .of_eq rfl rfl rfl

theorem shotOverlap_raises (off : Nat) (s : State) : Raises s (shotOverlap off s) := by
  cases hop : s.shot.op with
  | none => rw [shotOverlap_none hop]; exact .refl s
  | some op =>
    by_cases hoff : off / 32 = (shotOff op.req.cam op.req.shot 0).toNat / 32
    · obtain ⟨q, hq, -, -⟩ := orphanPort_cases shotOwner s
      by_cases hwork : op.req.work = .fetch
      · rw [shotOverlap_fetch hop hoff hwork, hq]
        split
        · exact .of_eq rfl rfl rfl
        · exact Raises.trans (t := { s with port := q }) (.of_eq rfl rfl rfl) (failFetch_raises ..)
      · rw [shotOverlap_capture hop hoff hwork]; exact .of_eq rfl rfl rfl
    · rw [shotOverlap_miss hop hoff]; exact .refl s

/-! The course of a write of bad parity -/

theorem forward_raises (h : Raises s v) (a : Addr) (w x : Option MWord) (e : OnEnd) : Raises s (forward a w x e v) :=
  h.trans (.of_eq rfl rfl rfl)

theorem refuseAccess_raises (h : Raises s v) (x : HostAccess) : Raises s (refuseAccess x v) :=
  h.trans ((flag_raises flagFenceHit v).trans (.of_eq rfl rfl rfl))

theorem takeSlot_raises_of_bad (x : Axis) (st : Staged) (hw : wordOk w = false) (s : State) : Raises s (takeSlot c x st w s) := by
  rw [takeSlot_bad (by rw [hw, Bool.and_false])]
  exact .of_eq rfl rfl rfl

theorem takeProbe_raises_of_bad (st : Staged) (hw : wordOk w = false) (s : State) : Raises s (takeProbe st w s) := by
  rw [takeProbe_bad (by rw [hw, Bool.and_false])]
  exact .of_eq rfl rfl rfl

theorem writeSlot_raises_of_bad (c : Cam) (x : Axis) (high : Bool) (h : HostAccess) (hw : wordOk w = false) (s : State) :
    Raises s (writeSlot c x high h w s) := by
  unfold writeSlot
  dsimp only
  split
  · exact refuseAccess_raises (modCam_raises ..) _
  · split
    · split
      · exact .of_eq rfl rfl rfl
      · exact forward_raises (.refl s) ..
    · split
      · split
        · exact takeSlot_raises_of_bad _ _ hw s
        · exact forward_raises (modCam_raises ..) ..
      · exact .of_eq rfl rfl rfl

theorem regionWrite_raises_of_bad (off : Nat) (x : HostAccess) (hw : wordOk w = false) (s : State) : Raises s (regionWrite off x w s) := by
  have hbad : ∀ v : State, (if wordOk w = true then v else s) = s := fun v => by rw [hw]; rfl
  unfold regionWrite
  split
  case _ => exact forward_raises (.refl s) ..
  case _ => exact refuseAccess_raises (.refl s) _
  case _ => rw [writeFlags, hbad]; exact forward_raises (.refl s) ..
  case _ => rw [writeMask, hbad]; exact forward_raises (.refl s) ..
  case _ => rw [writeCaptureClear, hbad]; exact forward_raises (.refl s) ..
  case _ => rw [writeMissed, hbad]; exact forward_raises (.refl s) ..
  case _ => rw [writeHits, hbad]; exact forward_raises (.refl s) ..
  case _ => rw [writeFenceBound, hbad]; exact forward_raises (.refl s) ..
  case _ => exact forward_raises (.refl s) ..
  case _ => exact .of_eq rfl rfl rfl
  case _ =>
    unfold writeProbeHigh
    split
    · exact takeProbe_raises_of_bad _ hw s
    · exact forward_raises (.refl s) ..
  case _ => rw [takeBound, hbad]; exact forward_raises (.refl s) ..
  case _ => exact forward_raises (.refl s) ..
  case _ => exact forward_raises (.refl s) ..
  case _ => exact forward_raises (modCam_raises ..) ..
  case _ => exact forward_raises (modCam_raises ..) ..
  case _ => exact refuseAccess_raises (modCam_raises ..) _
  case _ => exact writeSlot_raises_of_bad _ _ _ _ hw s
  case _ => exact forward_raises (shotOverlap_raises ..) ..

theorem outsideAccess_raises (x : HostAccess) (s : State) : Raises s (outsideAccess x s) := by
  unfold outsideAccess
  dsimp only
  split
  · exact Raises.trans (t := s.setFences _) (.of_eq rfl rfl rfl) (refuseAccess_raises (.refl _) _)
  · exact forward_raises (.refl s) ..

theorem classify_raises_of_bad (a : Addr) (hw : wordOk w = false) (s : State) : Raises s (classify ⟨a, some w⟩ s) := by
  unfold classify
  split
  · exact outsideAccess_raises ..
  · exact regionWrite_raises_of_bad _ _ hw s

/-- A bad word is handed on whatever becomes of its access (R159). -/
theorem decodeHost_raises_of_bad (a : Addr) (hw : wordOk w = false) (s : State) :
    Raises (s.error .passParity false a w) (decodeHost ⟨a, some w⟩ s) := by
  simp only [decodeHost, testHostWord_bad hw]
  split
  · exact classify_raises_of_bad a hw _
  · split
    · exact classify_raises_of_bad a hw _
    · unfold countInterruption
      split <;> exact .of_eq rfl rfl rfl

theorem and_eq_of_bits {n : Nat} {x y : BitVec n} (h : ∀ i, y.getLsbD i = true → x.getLsbD i = true) : x &&& y = y := by
  ext i hi
  rw [BitVec.getElem_and, ← BitVec.getLsbD_eq_getElem, ← BitVec.getLsbD_eq_getElem]
  cases hy : y.getLsbD i with
  | true => rw [h i hy]; rfl
  | false => rw [Bool.and_false]

/-- Settles O8: a passed access is forwarded by its class; no class clears a flag or the record after a bad word. -/
theorem passedAccessesAndBadWords : Obligations.PassedAccessesAndBadWords := by
  refine ⟨fun s off hr => ⟨⟨_, rfl, ?_⟩, fun w hoff => ⟨_, rfl, ?_⟩⟩, fun s a w hrun hfree hq hw => ⟨_, rfl, ?_⟩⟩
  · rw [present_classify hr, classify, testHostWord_good rfl, offsetOf_addrOf]
    exact settle_forward (.refl s) hr.queue rfl s _ _ _ _
  · exact presentAt_forward hr (by rw [regionWrite, regionWord_of_pass hoff]) (testHostWord_settled _ w s) (testHostWord_bus _ s)
      (testHostWord_mem _ s)
  · rw [present_of_free hrun hfree hq]
    have h := decodeHost_raises_of_bad a hw s
    have hset := settle_calm (.of_empty (h.queue.trans hq)) s
    refine ⟨?_, by rw [hset.capture, h.capture, error_capture]⟩
    rw [hset.flags]
    exact and_eq_of_bits fun i hi => h.flags i (by rw [error_flags, BitVec.getLsbD_or, show errFlag .passParity = flagParityFault from rfl, hi, Bool.or_true])

end Sys2Proof.Machine

/-! Zones applied and removed (R114, R116). -/

namespace Sys2Proof.Machine

variable {s u v t : State} {c : Cam} {w : MWord} {a : Addr} {z : Fin 16}

/-! Application -/

/-- The floor after entry z has been applied (R114). -/
def floorApplied (z : Fin 16) (f : FloorMap) : FloorMap :=
  { f with
    zones := f.zones.set z { f.zones[z] with status := .active, applied := some (zoneRect f.zones[z]) }
    cells := gridOf fun x y =>
      if inRect (zoneRect f.zones[z]) x y = true ∧ gridAt f.cells x y = .free then .blocked else gridAt f.cells x y }

/-- The floor after entry z has been refused (R114). -/
def floorRefused (z : Fin 16) (f : FloorMap) : FloorMap :=
  { f with zones := f.zones.set z { f.zones[z] with status := .refusedHeld, applied := none } }

theorem isHeld_iff {x : Cell} : isHeld x = true ↔ ∃ c, x = .held c := by
  cases x <;> simp [isHeld]

theorem anyCell_isHeld_false {f : FloorMap} {r : Rect} (h : ∀ x y, inRect r x y = true → isHeld (gridAt f.cells x y) = false) :
    anyCell f r isHeld = false := by
  rw [Bool.eq_false_iff, ne_eq, anyCell_iff]
  rintro ⟨x, y, hr, hh⟩
  rw [h x y hr] at hh
  cases hh

theorem applyZone_active (h : s.floor.zones[z].status = .active) : applyZone z s = s := if_pos h

theorem applyZone_refused (h : s.floor.zones[z].status ≠ .active) (hh : anyCell s.floor (zoneRect s.floor.zones[z]) isHeld = true) :
    applyZone z s = (s.zoneStatus z .refusedHeld none).flag flagZoneRefused := by
  simp only [applyZone, h, hh, if_true, if_false]

theorem applyZone_granted (h : s.floor.zones[z].status ≠ .active) (hh : anyCell s.floor (zoneRect s.floor.zones[z]) isHeld = false) :
    applyZone z s =
      (s.paint fun x y v => if inRect (zoneRect s.floor.zones[z]) x y && v == .free then .blocked else v).zoneStatus z .active
        (some (zoneRect s.floor.zones[z])) := by
  simp only [applyZone, h, hh, if_false, Bool.false_eq_true]

theorem paintCells_granted (r : Rect) (g : Grid Cell) :
    paintCells (fun x y v => if inRect r x y && v == .free then .blocked else v) g =
      gridOf fun x y => if inRect r x y = true ∧ gridAt g x y = .free then .blocked else gridAt g x y := by
  unfold paintCells
  refine congrArg gridOf (funext fun x => funext fun y => ?_)
  simp only [Bool.and_eq_true, beq_iff_eq]

/-- A change of the cells. -/
theorem Settled.paint (h : Settled u v) (f : Fin 32 → Fin 32 → Cell → Cell) :
    Settled { u with floor := { u.floor with cells := paintCells f u.floor.cells } } (v.paint f) := by
  unfold State.paint
  generalize paintDue f v.floor.cells v.stat.cellDue = due
  rw [h.floor]
  generalize paintCells f u.floor.cells = g
  exact { h with floor := rfl }

/-- A change of an entry's status. -/
theorem Settled.zoneStatus (h : Settled u v) (z : Fin 16) (st : ZoneStatus) (r : Option Rect) :
    Settled { u with floor := { u.floor with zones := u.floor.zones.set z { u.floor.zones[z] with status := st, applied := r } } }
      (v.zoneStatus z st r) :=
  { h with
    floor := congrArg (fun m : FloorMap => { m with zones := m.zones.set z { m.zones[z] with status := st, applied := r } }) h.floor }

/-- An entry applied over no HELD cell (R114). -/
theorem applyZone_settled (h : Settled u s) (hst : s.floor.zones[z].status ≠ .active)
    (hh : anyCell s.floor (zoneRect s.floor.zones[z]) isHeld = false) : Settled { u with floor := floorApplied z u.floor } (applyZone z s) := by
  rw [applyZone_granted hst hh, h.floor]
  have hs := (h.paint fun x y v => if inRect (zoneRect u.floor.zones[z]) x y && v == .free then .blocked else v).zoneStatus z .active
    (some (zoneRect u.floor.zones[z]))
  rw [paintCells_granted] at hs
  exact hs

theorem refuseZone_settled (h : Settled u s) (hst : s.floor.zones[z].status ≠ .active)
    (hh : anyCell s.floor (zoneRect s.floor.zones[z]) isHeld = true) :
    Settled { u with floor := floorRefused z u.floor, stat := { u.stat with flags := u.stat.flags ||| flagZoneRefused } } (applyZone z s) := by
  rw [applyZone_refused hst hh]
  exact (h.zoneStatus z .refusedHeld none).flag flagZoneRefused

theorem paint_mem_bus (f : Fin 32 → Fin 32 → Cell → Cell) (s : State) : (s.paint f).mem = s.mem ∧ (s.paint f).bus = s.bus := by
  unfold State.paint
  exact ⟨rfl, rfl⟩

theorem zoneStatus_mem_bus (z : Fin 16) (st : ZoneStatus) (r : Option Rect) (s : State) :
    (s.zoneStatus z st r).mem = s.mem ∧ (s.zoneStatus z st r).bus = s.bus := ⟨rfl, rfl⟩

theorem applyZone_mem_bus (z : Fin 16) (s : State) : (applyZone z s).mem = s.mem ∧ (applyZone z s).bus = s.bus := by
  unfold applyZone
  dsimp only
  split
  · exact ⟨rfl, rfl⟩
  · split
    · exact zoneStatus_mem_bus z .refusedHeld none s
    · obtain ⟨hm, hb⟩ := zoneStatus_mem_bus z .active (some (zoneRect s.floor.zones[z]))
        (s.paint fun x y v => if inRect (zoneRect s.floor.zones[z]) x y && v == .free then .blocked else v)
      obtain ⟨hm', hb'⟩ := paint_mem_bus (fun x y v => if inRect (zoneRect s.floor.zones[z]) x y && v == .free then .blocked else v) s
      exact ⟨hm.trans hm', hb.trans hb'⟩

/-! ENABLE writes -/

theorem takeEnable_bad (hw : wordOk w = false) (z : Fin 16) (s : State) : takeEnable z w s = s := by
  simp [takeEnable, hw]

theorem takeEnable_set (hw : wordOk w = true) (hb : w.data[0] = true) (z : Fin 16) (s : State) : takeEnable z w s = applyZone z s := by
  simp [takeEnable, hw, hb]

theorem takeEnable_clear (hw : wordOk w = true) (hb : w.data[0] = false) (z : Fin 16) (s : State) :
    takeEnable z w s = removeZone z s := by
  simp [takeEnable, hw, hb]

theorem zoneEnable_forwarded (z : Fin 16) (w : MWord) (s u : State) :
    regionWrite (zoneOff z 4).toNat ⟨addrOf s.base (zoneOff z 4), some w⟩ w u =
      forward (addrOf s.base (zoneOff z 4)) (some w) none (.zoneEnable z) u := by
  rw [regionWrite, regionWord_zoneEnable]

theorem zoneEnable_bad (h : Completing s (addrOf s.base (zoneOff z 4)) w (.zoneEnable z)) (hw : wordOk w = false) :
    MemoryPut s (addrOf s.base (zoneOff z 4)) w (completeWrite (zoneOff z 4) w s) ∧ (completeWrite (zoneOff z 4) w s).floor = s.floor := by
  obtain ⟨hm, -, hf⟩ := completeWrite_bad_ignored h hw (zoneEnable_forwarded z w s) fun v => takeEnable_bad hw z v
  exact ⟨hm, hf⟩

/-- An ENABLE word that completes, with what its owner makes of it. -/
theorem zoneEnable_good (h : Completing s (addrOf s.base (zoneOff z 4)) w (.zoneEnable z)) (hw : wordOk w = true)
    (hmem : ∀ v, v.cams = s.cams → (takeEnable z w v).mem = v.mem ∧ (takeEnable z w v).bus = v.bus) :
    MemoryPut s (addrOf s.base (zoneOff z 4)) w (completeWrite (zoneOff z 4) w s) ∧
      ∃ v, Settled (hostEnds (addrOf s.base (zoneOff z 4)) true false w s) v ∧
        Settled (takeEnable z w v) (completeWrite (zoneOff z 4) w s) := by
  obtain ⟨b, heq⟩ := completeWrite_done h hw (zoneEnable_forwarded z w s)
  obtain ⟨hm, hb⟩ := hmem (hostDone b (addrOf s.base (zoneOff z 4)) w s) rfl
  have hwaits : HostWaits (takeOnEnd (.zoneEnable z) w (hostDone b (addrOf s.base (zoneOff z 4)) w s)) :=
    .of_empty ((congrArg HostBus.queue hb).trans h.queue)
  rw [heq]
  exact ⟨settleWith_put h.memory hwaits hm _ _, _, hostDone_settled b _ w (.refl s), settleWith_settled hwaits (.refl _) _ _⟩

theorem getElem_zero_append (rest : BitVec 15) (b : BitVec 1) : (rest ++ b : BitVec 16)[0] = b[0] := by
  rw [BitVec.getElem_append]
  rfl

/-- Settles O20: the four outcomes are the branches of the application. -/
theorem zoneIsApplied : Obligations.ZoneIsApplied := by
  intro s z rest par a w ha hw h
  subst ha
  have hset : w.data[0] = true := by
    subst hw
    exact getElem_zero_append rest 1#1
  have hx : exec (.zoneApply z rest par) s = .next (completeWrite (zoneOff z 4) w s) := by rw [hw]; rfl
  refine ⟨_, hx, ?_⟩
  cases hok : wordOk w with
  | false =>
    obtain ⟨hm, hf⟩ := zoneEnable_bad h hok
    exact ⟨hm, fun _ => hf, nofun, nofun, nofun⟩
  | true =>
    obtain ⟨hm, v, hv, hs⟩ := zoneEnable_good h hok fun v _ => (takeEnable_set hok hset z v).symm ▸ applyZone_mem_bus z v
    rw [takeEnable_set hok hset] at hs
    have hfloor : v.floor = s.floor := hv.floor
    refine ⟨hm, nofun, fun _ hst => ?_, fun _ hst ⟨x, y, c, hr, hh⟩ => ?_, fun _ hst hfree => ?_⟩
    all_goals rw [← hfloor] at hst
    · rw [applyZone_active hst] at hs
      exact hv.trans hs
    · refine (refuseZone_settled hv hst ?_).trans hs
      rw [hfloor]
      exact (anyCell_iff ..).mpr ⟨x, y, hr, isHeld_iff.mpr ⟨c, hh⟩⟩
    · refine (applyZone_settled hv hst (anyCell_isHeld_false ?_)).trans hs
      rw [hfloor]
      intro x y hr
      rw [Bool.eq_false_iff, ne_eq, isHeld_iff]
      exact fun ⟨c, hh⟩ => hfree x y c hr hh

/-! Removal -/

theorem removeZone_inactive (h : s.floor.zones[z].status = .inactive) : removeZone z s = s := by simp only [removeZone, h]

theorem removeZone_refused (h : s.floor.zones[z].status = .refusedHeld) : removeZone z s = s.zoneStatus z .inactive none := by
  simp only [removeZone, h]

/-- The cells after entry z of the floor map has been removed (R116). -/
def freedBy (f : FloorMap) (z : Fin 16) (x y : Fin 32) (v : Cell) : Cell :=
  if f.zones[z].applied.any (inRect · x y) && !otherZone f z x y && v == .blocked then .free else v

/-- An ACTIVE entry removed while no camera waits for floor (R116). -/
theorem removeZone_active (h : s.floor.zones[z].status = .active) (hw : ∀ c : Cam, inWaitingSet (s.cam c) = false) :
    removeZone z s = (s.paint (freedBy s.floor z)).zoneStatus z .inactive none := by
  simp only [removeZone, h]
  refine releaseExam_of_none fun d => ?_
  rw [State.cam_congr ((State.zoneStatus_cams ..).trans (State.paint_cams ..)) d]
  exact hw d

theorem removeZone_mem_bus (hw : ∀ c : Cam, inWaitingSet (s.cam c) = false) (z : Fin 16) :
    (removeZone z s).mem = s.mem ∧ (removeZone z s).bus = s.bus := by
  cases h : s.floor.zones[z].status with
  | inactive => rw [removeZone_inactive h]; exact ⟨rfl, rfl⟩
  | refusedHeld => rw [removeZone_refused h]; exact zoneStatus_mem_bus ..
  | active =>
    rw [removeZone_active h hw]
    obtain ⟨hm, hb⟩ := zoneStatus_mem_bus z .inactive none (s.paint (freedBy s.floor z))
    obtain ⟨hm', hb'⟩ := paint_mem_bus (freedBy s.floor z) s
    exact ⟨hm.trans hm', hb.trans hb'⟩

theorem freedBy_free {f : FloorMap} {x y : Fin 32} (ha : f.zones[z].applied.any (inRect · x y) = true) (ho : otherZone f z x y = false) :
    freedBy f z x y .blocked = .free := by
  rw [freedBy, ha, ho]
  rfl

theorem freedBy_stands {f : FloorMap} {x y : Fin 32} (h : f.zones[z].applied.any (inRect · x y) = false ∨ otherZone f z x y = true)
    (v : Cell) : freedBy f z x y v = v := by
  refine if_neg fun hcond => ?_
  simp only [Bool.and_eq_true, Bool.not_eq_true'] at hcond
  obtain ⟨⟨ha, ho⟩, -⟩ := hcond
  rcases h with h | h
  · exact absurd (ha.symm.trans h) nofun
  · exact absurd (ho.symm.trans h) nofun

/-- Settles O21: the outcomes are the branches of the removal; a cell of the entry is BLOCKED because the entry is ACTIVE. -/
theorem zoneIsRemoved : Obligations.ZoneIsRemoved := by
  intro s z rest par a w ha hw h hzones hwait
  subst ha
  have hclear : w.data[0] = false := by
    subst hw
    exact getElem_zero_append rest 0#1
  have hx : exec (.zoneRemove z rest par) s = .next (completeWrite (zoneOff z 4) w s) := by rw [hw]; rfl
  refine ⟨_, hx, ?_⟩
  cases hok : wordOk w with
  | false =>
    obtain ⟨hm, hf⟩ := zoneEnable_bad h hok
    exact ⟨hm, fun _ => hf, nofun, nofun, nofun⟩
  | true =>
    have hcalm : ∀ v : State, v.cams = s.cams → ∀ c : Cam, inWaitingSet (v.cam c) = false := fun v hv c => by
      rw [State.cam_congr hv c]; exact hwait c
    obtain ⟨hm, v, hv, hs⟩ := zoneEnable_good h hok fun v hv =>
      (takeEnable_clear hok hclear z v).symm ▸ removeZone_mem_bus (hcalm v hv) z
    rw [takeEnable_clear hok hclear] at hs
    have hfloor : v.floor = s.floor := hv.floor
    refine ⟨hm, nofun, fun _ hst => ?_, fun _ hst => ?_, fun _ hst => ?_⟩
    all_goals rw [← hfloor] at hst
    · rw [removeZone_inactive hst] at hs
      exact hv.trans hs
    · rw [removeZone_refused hst] at hs
      exact (hv.zoneStatus z .inactive none).trans hs
    · rw [removeZone_active hst (hcalm v hv.cams), hfloor] at hs
      have hset := ((hv.paint (freedBy s.floor z)).zoneStatus z .inactive none).trans hs
      generalize completeWrite (zoneOff z 4) w s = t at hset
      have hcells : t.floor.cells = paintCells (freedBy s.floor z) s.floor.cells := by rw [hset.floor]; rfl
      have hz : t.floor.zones = s.floor.zones.set z { s.floor.zones[z] with status := .inactive, applied := none } := by rw [hset.floor]; rfl
      have hother : ∀ i : Fin 16, i ≠ z → t.floor.zones[i] = s.floor.zones[i] := fun i hi => by rw [zone_of_set hz, if_neg hi]
      have hcell : ∀ x y, gridAt t.floor.cells x y = freedBy s.floor z x y (gridAt s.floor.cells x y) := fun x y => by
        rw [hcells, paintCells, gridAt_gridOf]
      refine ⟨{ hset with floor := rfl }, hother, by rw [zone_of_set hz, if_pos rfl], fun x y => ⟨fun ⟨ha, hno⟩ => ?_, fun hstand => ?_⟩⟩
      · have hblocked : gridAt s.floor.cells x y = .blocked := (hzones.blocked x y).mpr ⟨z, hfloor ▸ hst, ha⟩
        have hfree : otherZone s.floor z x y = false := by
          rw [Bool.eq_false_iff, ne_eq, otherZone_iff]
          rintro ⟨i, hi, hst', ha'⟩
          exact absurd (ha'.symm.trans (hno i hi hst')) nofun
        rw [hcell, hblocked, freedBy_free ha hfree]
      · rw [hcell, freedBy_stands (hstand.imp_right otherZone_iff.mpr)]

end Sys2Proof.Machine

/-! The load: settings, fence and zone entries, and the writes of its second phase (R164, R153, R115, R170). -/

namespace Sys2Proof.Machine

variable {s u v t : State} {c : Cam} {w : MWord} {a : Addr} {n : Nat} {answer : Option MWord}

/-! Changes of the load's progress -/

theorem Settled.error (h : Settled u v) (cls : ErrClass) (own : Bool) (a : Addr) (w : MWord) :
    Settled (withError cls own a w u) (v.error cls own a w) :=
  { h with
    flags := by rw [error_flags, h.flags]; rfl
    capture := by rw [error_capture, h.capture]; rfl
    mask := (error_settled cls own a w v).mask.trans h.mask
    probe := (error_settled cls own a w v).probe.trans h.probe
    interval := (error_settled cls own a w v).interval.trans h.interval
    count := (error_settled cls own a w v).count.trans h.count }

theorem Settled.starting (h : Settled u v) (x : Startup) : Settled { u with startup := x } { v with startup := x } :=
  { h with startup := rfl }

theorem Settled.entering (h : Settled u v) (l : List MWord) : Settled { u with loadEntry := l } { v with loadEntry := l } :=
  { h with loadEntry := rfl }

/-! The end of a read -/

/-- A read of the load whose word has been tested (R164). -/
def ownTested (a : Addr) (w : MWord) (s : State) : State := if wordOk w then s else withError .ownParity true a w s

theorem ownTested_good (hw : wordOk w = true) (a : Addr) (s : State) : ownTested a w s = s := if_pos hw

theorem ownTested_bad (hw : wordOk w = false) (a : Addr) (s : State) : ownTested a w s = withError .ownParity true a w s :=
  if_neg (by simp [hw])

/-- The state in which the word of a read is taken: the port is free, and a fault of the word is handed on. -/
def readTaken (a : Addr) (w : MWord) (s : State) : State := if wordOk w then s.freePort else s.freePort.error .ownParity true a w

theorem freePort_settled (s : State) : Settled s s.freePort := by constructor <;> first | rfl | exact fun _ => rfl

theorem readTaken_settled (a : Addr) (w : MWord) (s : State) : Settled (ownTested a w s) (readTaken a w s) := by
  unfold ownTested readTaken
  split
  · exact freePort_settled s
  · exact (freePort_settled s).error ..

theorem readTaken_mem (a : Addr) (w : MWord) (s : State) : (readTaken a w s).mem = s.mem := by
  unfold readTaken
  split <;> rfl

/-- The owner's part of a read of the first phase. -/
def takeLoadRead (n : Nat) (w : MWord) (s : State) : State :=
  if n < 13 then takeSetting n (if wordOk w then w.data else settingDefault n) s
  else if n < 53 then loadFence (Fin.ofNat 8 ((n - 13) / 5)) ((n - 13) % 5) w s
  else loadZone (Fin.ofNat 16 ((n - 53) / 5)) ((n - 53) % 5) w s

theorem startupRead_eq (n : Nat) (a : Addr) (w : MWord) (s : State) :
    startupRead n a w s.freePort =
      if n + 1 < loadReads then { takeLoadRead n w (readTaken a w s) with startup := .reading (n + 1) }
      else beginWrites (takeLoadRead n w (readTaken a w s)) := rfl

theorem exec_startupReadEnd (hp : s.port.cur = some ⟨.startupRead n, a, none, none, true⟩) (hw : answer.getD (s.read a) = w) :
    exec (.startupReadEnd answer) s = .next (settle s (startupRead n a w s.freePort)) := by
  have ha := portAccess_of hp (p := startupReadOwner) rfl
  show execStartupReadEnd answer s = _
  rw [execStartupReadEnd, ha, ← hw]
  rfl

/-- A read of the load that is not the last of its phase. -/
theorem startupReadEnd_next (hp : s.port.cur = some ⟨.startupRead n, a, none, none, true⟩) (hw : answer.getD (s.read a) = w)
    (hn : n + 1 < loadReads) (hv : Settled u (takeLoadRead n w (readTaken a w s)))
    (hm : (takeLoadRead n w (readTaken a w s)).mem = s.mem) :
    ∃ t, exec (.startupReadEnd answer) s = .next t ∧ SameMemory s t ∧ Settled { u with startup := .reading (n + 1) } t := by
  refine ⟨_, exec_startupReadEnd hp hw, ?_⟩
  rw [startupRead_eq, if_pos hn]
  have hwaits : HostWaits { takeLoadRead n w (readTaken a w s) with startup := .reading (n + 1) } := .of_notRunning nofun
  exact ⟨settle_same hwaits hm s, settle_settled hwaits (hv.starting _) s⟩

/-- The last read of the first phase. -/
theorem startupReadEnd_last (hp : s.port.cur = some ⟨.startupRead n, a, none, none, true⟩) (hw : answer.getD (s.read a) = w)
    (hn : ¬n + 1 < loadReads) (hv : Settled u (takeLoadRead n w (readTaken a w s)))
    (hm : (takeLoadRead n w (readTaken a w s)).mem = s.mem) :
    ∃ t, exec (.startupReadEnd answer) s = .next t ∧ SameMemory s t ∧ Settled { u with startup := .writing 0, loadEntry := [] } t := by
  refine ⟨_, exec_startupReadEnd hp hw, ?_⟩
  rw [startupRead_eq, if_neg hn]
  have hwaits : HostWaits (beginWrites (takeLoadRead n w (readTaken a w s))) := .of_notRunning nofun
  exact ⟨settle_same hwaits hm s, settle_settled hwaits ((hv.starting (.writing 0)).entering []) s⟩

/-! Settings -/

/-- The part after setting n has taken the word d, as the statements write it (R164, R172). -/
def settingTaken (n : Nat) (d : BitVec 16) (s : State) : State :=
  { s with
    port := { s.port with timeout := if n = 0 then clampNat 1 255 d.toNat else s.port.timeout }
    timer :=
      { s.timer with
        mode := if n = 1 then (if d.getLsbD 0 then .house else .internal) else s.timer.mode
        tint := if n = 2 then clampNat 500 20000 d.toNat else s.timer.tint
        divider := if n = 3 then clampNat 1 16 d.toNat else s.timer.divider
        falling := if n = 4 then d.getLsbD 0 else s.timer.falling }
    stat := { s.stat with interval := if n = 5 then clampNat 1 255 d.toNat else s.stat.interval }
    lines :=
      { s.lines with
        polarity := if n = 6 then d.extractLsb' 0 8 else s.lines.polarity
        edges := if n = 7 then d else s.lines.edges }
    floor :=
      { s.floor with
        ox := if n = 8 then s.floor.ox.extractLsb' 16 16 ++ d
          else if n = 9 then d ++ s.floor.ox.extractLsb' 0 16 else s.floor.ox
        oy := if n = 10 then s.floor.oy.extractLsb' 16 16 ++ d
          else if n = 11 then d ++ s.floor.oy.extractLsb' 0 16 else s.floor.oy
        shift := if n = 12 then clampNat 0 24 d.toNat else s.floor.shift } }

theorem takeSetting_settled (h : Settled u v) (hn : n < 13) (d : BitVec 16) : Settled (settingTaken n d u) (takeSetting n d v) := by
  have hz : d[0] = d.getLsbD 0 := rfl
  interval_cases n <;> simp only [takeSetting, hz]
  · exact { h with timeout := rfl }
  · exact { h with timer := congrArg (fun m : FrameTimer => { m with mode := if d.getLsbD 0 then .house else .internal }) h.timer }
  · exact { h with timer := congrArg (fun m : FrameTimer => { m with tint := clampNat 500 20000 d.toNat }) h.timer }
  · exact { h with timer := congrArg (fun m : FrameTimer => { m with divider := clampNat 1 16 d.toNat }) h.timer }
  · exact { h with timer := congrArg (fun m : FrameTimer => { m with falling := d.getLsbD 0 }) h.timer }
  · exact { h with interval := rfl }
  · exact { h with lines := congrArg (fun l : LineMonitor => { l with polarity := d.extractLsb' 0 8 }) h.lines }
  · exact { h with lines := congrArg (fun l : LineMonitor => { l with edges := d }) h.lines }
  · exact { h with floor := congrArg (fun f : FloorMap => { f with ox := f.ox.extractLsb' 16 16 ++ d }) h.floor }
  · exact { h with floor := congrArg (fun f : FloorMap => { f with ox := d ++ f.ox.extractLsb' 0 16 }) h.floor }
  · exact { h with floor := congrArg (fun f : FloorMap => { f with oy := f.oy.extractLsb' 16 16 ++ d }) h.floor }
  · exact { h with floor := congrArg (fun f : FloorMap => { f with oy := d ++ f.oy.extractLsb' 0 16 }) h.floor }
  · exact { h with floor := congrArg (fun f : FloorMap => { f with shift := clampNat 0 24 d.toNat }) h.floor }

theorem takeSetting_mem (n : Nat) (d : BitVec 16) (s : State) : (takeSetting n d s).mem = s.mem := by
  unfold takeSetting
  split <;> rfl

theorem settingDefault_eq (hn : n < 13) : settingDefault n =
    if n = 0 then 16 else if n = 2 then 2000 else if n = 3 then 1 else if n = 5 then 10 else if n = 12 then 12 else 0 := by
  interval_cases n <;> rfl

/-- Settles O4: each setting is taken by its owner, good or by its default. -/
theorem loadTakesTheSettings : Obligations.LoadTakesTheSettings := by
  intro n a answer w d s u hn hp hw hgood hbad
  have htake : takeLoadRead n w (readTaken a w s) = takeSetting n (if wordOk w then w.data else settingDefault n) (readTaken a w s) :=
    if_pos hn
  have hd : (if wordOk w then w.data else settingDefault n) = d ∧ u = ownTested a w s := by
    cases hok : wordOk w with
    | true => exact ⟨(hgood hok).1.symm, (hgood hok).2.trans (ownTested_good hok a s).symm⟩
    | false => exact ⟨((hbad hok).1.trans (settingDefault_eq hn).symm).symm, (hbad hok).2.trans (ownTested_bad hok a s).symm⟩
  obtain ⟨hd, rfl⟩ := hd
  rw [hd] at htake
  obtain ⟨t, hx, hm, hs⟩ := startupReadEnd_next (u := settingTaken n d (ownTested a w s)) hp hw (by rw [loadReads]; omega)
    (by rw [htake]; exact takeSetting_settled (readTaken_settled a w s) hn d)
    (by rw [htake, takeSetting_mem, readTaken_mem])
  refine ⟨t, hx, hm, ?_⟩
  unfold ownTested at hs ⊢
  split <;> rename_i hok
  · rw [if_pos hok] at hs
    exact hs
  · rw [if_neg hok] at hs
    exact hs

/-! Fence and zone entries -/

theorem takeLoadRead_fence (f : Fin 8) {k : Nat} (hk : k < 5) (w : MWord) (s : State) :
    takeLoadRead (13 + 5 * f.val + k) w s = loadFence f k w s := by
  have hf := f.isLt
  have hdiv : (13 + 5 * f.val + k - 13) / 5 = f.val := by omega
  have hmod : (13 + 5 * f.val + k - 13) % 5 = k := by omega
  rw [takeLoadRead, if_neg (by omega), if_pos (by omega), hdiv, hmod]
  congr 1
  exact Fin.ext (Nat.mod_eq_of_lt hf)

theorem takeLoadRead_zone (z : Fin 16) {k : Nat} (hk : k < 5) (w : MWord) (s : State) :
    takeLoadRead (53 + 5 * z.val + k) w s = loadZone z k w s := by
  have hz := z.isLt
  have hdiv : (53 + 5 * z.val + k - 53) / 5 = z.val := by omega
  have hmod : (53 + 5 * z.val + k - 53) % 5 = k := by omega
  rw [takeLoadRead, if_neg (by omega), if_neg (by omega), hdiv, hmod]
  congr 1
  exact Fin.ext (Nat.mod_eq_of_lt hz)

theorem readTaken_loadEntry (a : Addr) (w : MWord) (s : State) : (readTaken a w s).loadEntry = s.loadEntry := by
  unfold readTaken
  split <;> rfl

theorem readTaken_floor (a : Addr) (w : MWord) (s : State) : (readTaken a w s).floor = s.floor := by
  unfold readTaken
  split <;> rfl

theorem loadFence_word {k : Nat} (hk : k < 4) (f : Fin 8) (w : MWord) (s : State) :
    loadFence f k w s = { s with loadEntry := s.loadEntry ++ [w] } := if_pos hk

theorem loadFence_last (f : Fin 8) (w : MWord) (s : State) :
    loadFence f 4 w s =
      if (s.loadEntry ++ [w]).all wordOk then
        { s with loadEntry := [], fences := s.fences.set f (fenceOfWords s.fences[f].hits (s.loadEntry ++ [w])) }
      else { s with loadEntry := [] } := rfl

theorem loadZone_word (z : Fin 16) (k : Fin 4) (w : MWord) (s : State) :
    loadZone z k w s = takeBound z k w { s with loadEntry := s.loadEntry ++ [w] } := by
  have hk : Fin.ofNat 4 k.val = k := Fin.ext (Nat.mod_eq_of_lt k.isLt)
  rw [loadZone, if_pos k.isLt, hk]

theorem loadZone_last (z : Fin 16) (w : MWord) (s : State) :
    loadZone z 4 w s =
      if (s.loadEntry ++ [w]).all wordOk && w.data[0] then applyZone z { s with loadEntry := [] } else { s with loadEntry := [] } := rfl

theorem takeBound_good (hw : wordOk w = true) (z : Fin 16) (k : Fin 4) (s : State) :
    takeBound z k w s = s.modZone z fun e => { e with bounds := e.bounds.set k (zoneBoundOf w.data) } := if_pos hw

theorem takeBound_bad (hw : wordOk w = false) (z : Fin 16) (k : Fin 4) (s : State) : takeBound z k w s = s :=
  if_neg (by simp [hw])

theorem takeBound_mem (z : Fin 16) (k : Fin 4) (w : MWord) (s : State) : (takeBound z k w s).mem = s.mem := by
  unfold takeBound
  split <;> rfl

/-- A latched bound. -/
theorem Settled.bound (h : Settled u v) (z : Fin 16) (k : Fin 4) (n : Nat) :
    Settled
      { u with
        floor := { u.floor with zones := u.floor.zones.set z { u.floor.zones[z] with bounds := u.floor.zones[z].bounds.set k n } } }
      (v.modZone z fun e => { e with bounds := e.bounds.set k n }) :=
  { h with floor := congrArg (fun m : FloorMap => { m with zones := m.zones.set z { m.zones[z] with bounds := m.zones[z].bounds.set k n } }) h.floor }

theorem Settled.entry (h : Settled u v) (f : Fin 8) (g : Fence → Fence) :
    Settled { u with fences := u.fences.set f (g u.fences[f]) } { v with fences := v.fences.set f (g v.fences[f]) } :=
  { h with fences := congrArg (fun fs : Vector Fence 8 => fs.set f (g fs[f])) h.fences }

theorem fenceWord_taken (f : Fin 8) (k : Fin 4) (hp : s.port.cur = some ⟨.startupRead (13 + 5 * f.val + k.val), a, none, none, true⟩)
    (hw : answer.getD (s.read a) = w) :
    ∃ t, exec (.startupReadEnd answer) s = .next t ∧ SameMemory s t ∧
      Settled { ownTested a w s with startup := .reading (13 + 5 * f.val + k.val + 1), loadEntry := s.loadEntry ++ [w] } t := by
  have hf := f.isLt
  have hk := k.isLt
  have htake := (takeLoadRead_fence f (by omega) w (readTaken a w s)).trans (loadFence_word hk f w (readTaken a w s))
  rw [readTaken_loadEntry] at htake
  exact startupReadEnd_next (u := { ownTested a w s with loadEntry := s.loadEntry ++ [w] }) hp hw (by rw [loadReads]; omega)
    (by rw [htake]; exact (readTaken_settled a w s).entering _) (by rw [htake]; exact readTaken_mem a w s)

/-- The fifth word of a fence entry. -/
theorem fenceEntry_taken (f : Fin 8) {l : List MWord} (hp : s.port.cur = some ⟨.startupRead (13 + 5 * f.val + 4), a, none, none, true⟩)
    (hl : s.loadEntry = l) (hw : answer.getD (s.read a) = w) :
    ∃ t, exec (.startupReadEnd answer) s = .next t ∧ SameMemory s t ∧
      ((l ++ [w]).all wordOk = false →
        Settled { ownTested a w s with startup := .reading (13 + 5 * f.val + 5), loadEntry := [] } t) ∧
      ((l ++ [w]).all wordOk = true →
        Settled
          { s with
            startup := .reading (13 + 5 * f.val + 5), loadEntry := []
            fences := s.fences.set f (fenceOfWords s.fences[f].hits (l ++ [w])) } t) := by
  have hf := f.isLt
  have htake := (takeLoadRead_fence f (by omega) w (readTaken a w s)).trans (loadFence_last f w (readTaken a w s))
  rw [readTaken_loadEntry, hl] at htake
  have hread := (readTaken_settled a w s).entering []
  have hn : 13 + 5 * f.val + 4 + 1 < loadReads := by rw [loadReads]; omega
  cases hall : (l ++ [w]).all wordOk with
  | false =>
    rw [if_neg (by rw [hall]; nofun)] at htake
    obtain ⟨t, hx, hm, hs⟩ := startupReadEnd_next (u := { ownTested a w s with loadEntry := [] }) hp hw hn (by rw [htake]; exact hread)
      (by rw [htake]; exact readTaken_mem a w s)
    exact ⟨t, hx, hm, fun _ => hs, nofun⟩
  | true =>
    have hok : wordOk w = true := List.all_eq_true.mp hall w (by simp)
    rw [if_pos hall] at htake
    rw [ownTested_good hok] at hread
    have hentry := hread.entry f fun e => fenceOfWords e.hits (l ++ [w])
    obtain ⟨t, hx, hm, hs⟩ := startupReadEnd_next hp hw hn (by rw [htake]; exact hentry) (by rw [htake]; exact readTaken_mem a w s)
    exact ⟨t, hx, hm, nofun, fun _ => hs⟩

theorem zoneWord_taken (z : Fin 16) (k : Fin 4) (hp : s.port.cur = some ⟨.startupRead (53 + 5 * z.val + k.val), a, none, none, true⟩)
    (hw : answer.getD (s.read a) = w) :
    ∃ t, exec (.startupReadEnd answer) s = .next t ∧ SameMemory s t ∧
      (wordOk w = false →
        Settled (withError .ownParity true a w { s with startup := .reading (53 + 5 * z.val + k.val + 1), loadEntry := s.loadEntry ++ [w] }) t) ∧
      (wordOk w = true →
        Settled
          { s with
            startup := .reading (53 + 5 * z.val + k.val + 1), loadEntry := s.loadEntry ++ [w]
            floor :=
              { s.floor with
                zones := s.floor.zones.set z
                  { s.floor.zones[z] with bounds := s.floor.zones[z].bounds.set k (zoneBoundOf w.data) } } } t) := by
  have hz := z.isLt
  have hk := k.isLt
  have htake := (takeLoadRead_zone z (by omega) w (readTaken a w s)).trans (loadZone_word z k w (readTaken a w s))
  have hread := (readTaken_settled a w s).entering (s.loadEntry ++ [w])
  have hmem : (takeLoadRead (53 + 5 * z.val + k.val) w (readTaken a w s)).mem = s.mem := by
    rw [htake, takeBound_mem]; exact readTaken_mem a w s
  rw [readTaken_loadEntry] at htake
  have hn : 53 + 5 * z.val + k.val + 1 < loadReads := by rw [loadReads]; omega
  cases hok : wordOk w with
  | false =>
    rw [takeBound_bad hok] at htake
    rw [ownTested_bad hok] at hread
    obtain ⟨t, hx, hm, hs⟩ := startupReadEnd_next hp hw hn (by rw [htake]; exact hread) hmem
    exact ⟨t, hx, hm, fun _ => hs, nofun⟩
  | true =>
    rw [takeBound_good hok] at htake
    rw [ownTested_good hok] at hread
    obtain ⟨t, hx, hm, hs⟩ := startupReadEnd_next hp hw hn (by rw [htake]; exact hread.bound z k _) hmem
    exact ⟨t, hx, hm, nofun, fun _ => hs⟩

/-- The end of the fifth read of a zone entry, which is the last of the phase for the last entry (R164). -/
theorem zoneRead_ended (z : Fin 16) (hp : s.port.cur = some ⟨.startupRead (53 + 5 * z.val + 4), a, none, none, true⟩)
    (hw : answer.getD (s.read a) = w) (hv : Settled u (takeLoadRead (53 + 5 * z.val + 4) w (readTaken a w s)))
    (hm : (takeLoadRead (53 + 5 * z.val + 4) w (readTaken a w s)).mem = s.mem) (hl : u.loadEntry = []) :
    ∃ t, exec (.startupReadEnd answer) s = .next t ∧ SameMemory s t ∧
      Settled { u with startup := if z.val = 15 then .writing 0 else .reading (53 + 5 * z.val + 5) } t := by
  have hz := z.isLt
  by_cases hlast : z.val = 15
  · rw [if_pos hlast]
    have hend := startupReadEnd_last hp hw (by rw [loadReads]; omega) hv hm
    rwa [← hl] at hend
  · rw [if_neg hlast]
    exact startupReadEnd_next hp hw (by rw [loadReads]; omega) hv hm

/-- The fifth word of a zone entry that is not ACTIVE. -/
theorem zoneEntry_taken (z : Fin 16) {l : List MWord} (hp : s.port.cur = some ⟨.startupRead (53 + 5 * z.val + 4), a, none, none, true⟩)
    (hl : s.loadEntry = l) (hw : answer.getD (s.read a) = w) (hst : s.floor.zones[z].status ≠ .active) :
    ∃ t, exec (.startupReadEnd answer) s = .next t ∧ SameMemory s t ∧
      (((l ++ [w]).all wordOk && w.data[0]) = false →
        Settled
          { ownTested a w s with startup := if z.val = 15 then .writing 0 else .reading (53 + 5 * z.val + 5), loadEntry := [] } t) ∧
      (((l ++ [w]).all wordOk && w.data[0]) = true → (∀ x y : Fin 32, isHeld (gridAt s.floor.cells x y) = false) →
        Settled
          { s with
            startup := if z.val = 15 then .writing 0 else .reading (53 + 5 * z.val + 5), loadEntry := [], floor := floorApplied z s.floor } t) := by
  have htake := (takeLoadRead_zone z (by omega) w (readTaken a w s)).trans (loadZone_last z w (readTaken a w s))
  rw [readTaken_loadEntry, hl] at htake
  have hread := (readTaken_settled a w s).entering []
  have hmem : (takeLoadRead (53 + 5 * z.val + 4) w (readTaken a w s)).mem = s.mem := by
    rw [htake]
    split
    · exact (applyZone_mem_bus z _).1.trans (readTaken_mem a w s)
    · exact readTaken_mem a w s
  cases hall : (l ++ [w]).all wordOk && w.data[0] with
  | false =>
    rw [if_neg (by rw [hall]; nofun)] at htake
    obtain ⟨t, hx, hm, hs⟩ := zoneRead_ended z hp hw (by rw [htake]; exact hread) hmem rfl
    exact ⟨t, hx, hm, fun _ => hs, nofun⟩
  | true =>
    have hok : wordOk w = true := List.all_eq_true.mp (Bool.and_eq_true_iff.mp hall).1 w (by simp)
    rw [if_pos hall] at htake
    rw [ownTested_good hok] at hread
    have hfloor : ({ readTaken a w s with loadEntry := [] } : State).floor = s.floor := readTaken_floor a w s
    rw [← hfloor] at hst
    cases hh : anyCell s.floor (zoneRect s.floor.zones[z]) isHeld with
    | false =>
      have happ := applyZone_settled hread hst (by rw [hfloor]; exact hh)
      obtain ⟨t, hx, hm, hs⟩ := zoneRead_ended z hp hw (by rw [htake]; exact happ) hmem rfl
      exact ⟨t, hx, hm, nofun, fun _ _ => hs⟩
    | true =>
      have href := refuseZone_settled hread hst (by rw [hfloor]; exact hh)
      obtain ⟨t, hx, hm, -⟩ := zoneRead_ended z hp hw (by rw [htake]; exact href) hmem rfl
      exact ⟨t, hx, hm, nofun, fun _ hfree => absurd hh (by rw [anyCell_isHeld_false fun x y _ => hfree x y]; nofun)⟩

/-- Settles O5: the words of an entry are gathered, and the fifth decides on the entry. -/
theorem loadTakesTheEntries : Obligations.LoadTakesTheEntries := by
  refine ⟨fun f k a answer w s u hw hu hp => ?_, fun f a answer b0 b1 m0 m1 md s hp hl hw => ?_, fun z a answer w s hw =>
    ⟨fun k hp => zoneWord_taken z k hp hw, fun x0 y0 x1 y1 hp hl hst => ?_⟩⟩
  · subst hu
    exact fenceWord_taken f k hp hw
  · obtain ⟨t, hx, hm, hno, hyes⟩ := fenceEntry_taken f hp hl hw
    refine ⟨t, hx, hm, fun hbad => ?_, fun hok ⟨h0, h1, h2, h3⟩ => ?_, fun hok hbad => ?_⟩
    · have hs := hno (by simp [hbad])
      rwa [ownTested_bad hbad] at hs
    · exact hyes (by simp [h0, h1, h2, h3, hok])
    · have hs := hno (by rcases hbad with h | h | h | h <;> simp [h])
      rwa [ownTested_good hok] at hs
  · obtain ⟨t, hx, hm, hno, hyes⟩ := zoneEntry_taken z hp hl hw (by rw [hst]; nofun)
    have hbit : w.data[0] = w.data.getLsbD 0 := rfl
    refine ⟨t, hx, hm, fun hbad => ?_, fun hok hbad => ?_, fun hok ⟨h0, h1, h2, h3⟩ hset hfree => ?_⟩
    · have hs := hno (by simp [hbad])
      rwa [ownTested_bad hbad] at hs
    · have hs := hno (by
        rw [hbit]
        rcases hbad with h | h | h | h | h <;> simp only [List.cons_append, List.nil_append, List.all_cons, h, Bool.false_and, Bool.and_false])
      rwa [ownTested_good hok] at hs
    · exact hyes (by rw [hbit, hset]; simp [h0, h1, h2, h3, hok]) hfree

end Sys2Proof.Machine

/-! The writes of the load's second phase, and the load's end (R164, R120, R143, R168, R170). -/

namespace Sys2Proof.Machine

variable {s u v t : State} {c : Cam} {w : MWord} {a : Addr} {n : Nat}

/-! The Status Writer's marks at a grant -/

theorem grantFirstFill_stat (h : grantFirstFill s = some t) : t.stat = s.stat := by
  unfold grantFirstFill at h
  split at h
  · cases h; rfl
  · cases h

theorem grantSetpoint_stat (h : grantSetpoint s = some t) : t.stat = s.stat := by
  unfold grantSetpoint at h
  split at h
  · split at h
    · cases h; rfl
    · cases hf : grantFirstFill s with
      | none => rw [hf] at h; cases h; rfl
      | some u => rw [hf] at h; cases h; exact grantFirstFill_stat hf
  · exact grantFirstFill_stat h

theorem grantShot_stat (h : grantShot s = some t) : t.stat = s.stat := by
  simp only [grantShot, Option.map_eq_some_iff] at h
  obtain ⟨op, -, rfl⟩ := h
  split <;> rfl

theorem grantAdoption_stat (h : grantAdoption s = some t) : t.stat = s.stat := by
  unfold grantAdoption at h
  split at h
  · cases h
  · split at h
    · cases h
    · obtain ⟨off, -, rfl⟩ := Option.map_eq_some_iff.mp h
      rfl

theorem grantAdopt_running (h : s.startup = .running) : grantAdopt s = grantAdoption s := by simp only [grantAdopt, h]

theorem grantHost_stat (h : grantHost s = some t) : t.stat = s.stat := by
  obtain ⟨a, -, rfl⟩ := Option.map_eq_some_iff.mp h
  rfl

/-- The Status Writer takes up no item after a due line state (R168). -/
theorem firstDue_of_line {x : StatusWriter} (h : x.lineDue = true) :
    firstDue x = some .flags ∨ firstDue x = some .capture ∨ firstDue x = some .lineState := by
  unfold firstDue
  split
  · exact .inl rfl
  · split
    · exact .inr (.inl rfl)
    · exact .inr (.inr rfl)

theorem takeItem_syncDue {i : StatusItem} (h : i ≠ .syncGroup) (x : StatusWriter) : (takeItem i x).syncDue = x.syncDue := by
  cases i <;> first | rfl | exact absurd rfl h

theorem grantStatus_syncDue (hl : s.stat.lineDue = true) (h : grantStatus s = some t) : t.stat.syncDue = s.stat.syncDue := by
  unfold grantStatus at h
  split at h
  · cases h
  · split at h
    · cases h; rfl
    · split at h
      · cases h
      · next i hi =>
        have hne : i ≠ .syncGroup := by
          rintro rfl
          rcases firstDue_of_line hl with h' | h' | h' <;> rw [h'] at hi <;> cases hi
        dsimp only at h
        split at h
        · cases h
        · cases h
          exact takeItem_syncDue hne s.stat

theorem ownGrants_syncDue (hrun : s.startup = .running) (hl : s.stat.lineDue = true) (h : t ∈ ownGrants s) :
    t.stat.syncDue = s.stat.syncDue := by
  simp only [ownGrants, List.mem_filterMap, List.mem_cons, List.not_mem_nil, or_false, id_eq, exists_eq_right] at h
  rcases h with h | h | h | h
  · rw [grantSetpoint_stat h.symm]
  · rw [grantShot_stat h.symm]
  · rw [grantAdoption_stat ((grantAdopt_running hrun).symm.trans h.symm)]
  · exact grantStatus_syncDue hl h.symm

theorem arbitrate_syncDue (hrun : s.startup = .running) (hl : s.stat.lineDue = true) (free : Bool) :
    (arbitrate free s).stat.syncDue = s.stat.syncDue := by
  rcases arbitrate_granted free s with h | ⟨t, n, ht, h⟩
  · rw [h]
  · rw [h]
    have hstat : t.stat.syncDue = s.stat.syncDue :=
      ht.elim (ownGrants_syncDue hrun hl) fun hh => congrArg StatusWriter.syncDue (grantHost_stat hh)
    exact hstat

/-! The end of a write -/

theorem exec_startupWriteEnd (hp : s.port.cur = some ⟨.startupWrite n, a, some w, none, true⟩) :
    exec .startupWriteEnd s = .next (settle s (startupWrite n ((s.write a w).freePort))) := by
  have ha := portAccess_of hp (p := startupWriteOwner) rfl
  show execStartupWriteEnd s = _
  rw [execStartupWriteEnd, ha]
  rfl

theorem landed_settled (a : Addr) (w : MWord) (s : State) : Settled s (s.write a w).freePort := by
  constructor <;> first | rfl | exact fun _ => rfl

theorem startupWrite_next (hn : n + 1 < 1617)
    (hi : ∀ i : StatusItem, loadItem (n + 1) = some (i, false) → itemDue i s.stat = false) :
    startupWrite n s = { s with startup := .writing (n + 1) } := by
  rw [startupWrite, nextLoadWrite_here 63 hi, if_pos (by rw [loadWrites]; exact hn)]

theorem loadItem_past (h : 593 ≤ n) (i : StatusItem) : loadItem n ≠ some (i, false) := by
  unfold loadItem
  iterate 4 rw [if_neg (by omega)]
  simp

theorem startupWrite_last (s : State) : startupWrite 1616 s = endLoad s := by
  rw [startupWrite, nextLoadWrite_here 63 fun i hi => absurd hi (loadItem_past (by omega) i), if_neg (by rw [loadWrites]; omega)]

theorem endLoad_settled (h : Settled u v) :
    Settled
      { u with
        startup := .running
        timer :=
          { u.timer with
            sync := if u.timer.mode = .house then .seeking else .free
            nextExpiry := some u.timer.tint, lastTick := 0 }
        lines :=
          { u.lines with
            onAir := Vector.ofFn fun l => u.pins.tally[l] != u.lines.polarity.getLsbD l.val
            stop := u.pins.stopLow } }
      (endLoad v) :=
  { h with
    startup := rfl
    timer := congrArg (fun m : FrameTimer =>
      { m with sync := if m.mode = TimerMode.house then .seeking else .free, nextExpiry := some m.tint, lastTick := 0 }) h.timer
    lines := by rw [← h.lines, ← h.pins]; rfl }

/-- The end of an event leaves a due sync group standing while the line state is due. -/
theorem settle_syncDue (hw : HostWaits v) (hrun : v.startup = .running) (hl : v.stat.lineDue = true) (hs : v.stat.syncDue = true)
    (old : State) : (settle old v).stat.syncDue = true := by
  obtain ⟨e, he⟩ := startRequests_eq v
  have hw' : HostWaits (startRequests v) := by rw [he]; exact hw
  obtain ⟨e', he'⟩ := startRequests_eq (startRequests v)
  rw [settle, settleWith, pumpHost_of_waits hw', he', he, arbitrate_syncDue]
  · exact hs
  · exact hrun
  · exact hl

/-- Settles O6: a write that has ended is in memory, and the load goes on or ends; with the lines just sampled the due sync group is not taken
up at once. -/
theorem loadWritesAndEnds : Obligations.LoadWritesAndEnds := by
  intro n a w s hf hp
  refine ⟨fun hn hrun hi => ⟨_, exec_startupWriteEnd hp, ?_⟩, fun hn hq => ?_⟩
  · rw [startupWrite_next (s := (s.write a w).freePort) hn hi]
    have hwaits : HostWaits { (s.write a w).freePort with startup := .writing (n + 1) } := .of_notRunning nofun
    exact ⟨settle_put hf hwaits rfl s, settle_settled hwaits ((landed_settled a w s).starting _) s⟩
  · subst hn
    refine ⟨_, exec_startupWriteEnd hp, ?_⟩
    rw [startupWrite_last]
    have hwaits : HostWaits (endLoad (s.write a w).freePort) := .of_empty hq
    refine ⟨settle_put hf hwaits rfl s, fun hm hfree => ?_, settle_settled hwaits (endLoad_settled (landed_settled a w s)) s⟩
    refine settle_syncDue hwaits rfl rfl ?_ s
    have hsync : (endLoad (s.write a w).freePort).stat.syncDue =
        (s.stat.syncDue || ((if s.timer.mode = .house then SyncState.seeking else .free) != s.timer.sync)) := rfl
    rw [hsync, if_pos hm, hfree]
    exact Bool.or_true _

end Sys2Proof.Machine

/-! Requests that start at the end of an event, and the ends of host accesses (R87, R151, R162). -/

namespace Sys2Proof.Machine

variable {s u v t : State} {c : Cam} {w : MWord} {a : Addr} {n : Nat}

/-! Requests that start -/

theorem startRequests_idem (v : State) : startRequests (startRequests v) = startRequests v := by
  obtain ⟨e, he⟩ := startRequests_eq (startRequests v)
  have hq := startRequests_quiet (startRequests_shotQuiet v)
  rw [he] at hq ⊢
  simp only at hq
  subst hq
  rfl

theorem startRequests_waits (hw : HostWaits v) : HostWaits (startRequests v) := by
  obtain ⟨e, he⟩ := startRequests_eq v
  rw [he]
  exact hw

theorem settleWith_startRequests (free : Bool) (old v : State) : settleWith free old (startRequests v) = settleWith free old v := by
  rw [settleWith, settleWith, startRequests_idem]

/-- What the event and the start of its requests leave is what the event leaves (R87). -/
theorem settleWith_started (hw : HostWaits v) (h : Settled u (startRequests v)) (free : Bool) (old : State) :
    Settled u (settleWith free old v) := by
  rw [← settleWith_startRequests]
  exact settleWith_settled (startRequests_waits hw) h free old

theorem settle_started (hw : HostWaits v) (h : Settled u (startRequests v)) (old : State) : Settled u (settle old v) :=
  settleWith_started hw h _ old

theorem shotStarted_busy (l : List ShotReq) (op : ShotOp) : shotStarted l (some op) = ⟨l, some op, []⟩ := by cases l <;> rfl

theorem shotStarted_nil (op : Option ShotOp) : shotStarted [] op = ⟨[], op, []⟩ := by cases op <;> rfl

/-- With at most one request arriving, it joins the FIFO at its end, and the Shot Engine starts if it is free (R87). -/
theorem startRequests_shot {o : Option ShotReq} (h : s.shot.arrivals = o.toList) :
    (startRequests s).shot = shotStarted (s.shot.fifo ++ o.toList) s.shot.op := by
  have hfold : o.toList.foldl (fun l r => insertReq r l) [] = o.toList := by cases o <;> rfl
  have hj : (joinArrivals s).shot = ⟨s.shot.fifo ++ o.toList, s.shot.op, []⟩ := by
    rw [joinArrivals, State.modShot, h, hfold]
  rw [startRequests, startShot, hj]
  cases hop : s.shot.op with
  | some op => rw [shotStarted_busy, hj, hop]
  | none =>
    cases hf : s.shot.fifo ++ o.toList with
    | nil => rw [shotStarted_nil, hj, hop, hf]
    | cons r rest => rfl

/-- A change of the Shot Engine's state as it starts. -/
theorem Settled.started (h : Settled u v) {o : Option ShotReq} (ha : v.shot.arrivals = o.toList) :
    Settled { u with shot := shotStarted (v.shot.fifo ++ o.toList) v.shot.op } (startRequests v) := by
  have hs := startRequests_shot ha
  obtain ⟨e, he⟩ := startRequests_eq v
  rw [he] at hs ⊢
  exact { h with shot := fun _ => hs }

/-- A camera that stands IDLE and whose next head is a GOTO takes it, and its fetch joins the Shot Engine (R48, R87). -/
theorem takeHead_started (h : Settled u v) (hi : (v.cam c).state = .idle) (hg : GotoNext (v.cam c)) (ha : v.shot.arrivals = []) :
    Settled { withCam c (headTaken (v.cam c)) u with shot := headAsked c (v.cam c) v.shot } (startRequests (takeHead c v)) := by
  rw [takeHead_goto hi hg, ha]
  have hcams : Settled (withCam c (headTaken (v.cam c)) u) (v.setCam c (headTaken (v.cam c))) :=
    { h with cams := congrArg (fun cs : Vector Camera 8 => cs.set c (headTaken (v.cam c))) h.cams }
  exact (hcams.reshoot
    ⟨v.shot.fifo, v.shot.op, ((v.cam c).queue.head?.map fun q => (⟨c, q.arg.toNat, q.tag, .fetch⟩ : ShotReq)).toList⟩
    (q := v.port) rfl).started rfl

/-- An access that goes on holds the port. -/
theorem settle_port {x : Access} (hw : HostWaits v) (hp : v.port.cur = some x) (old : State) : (settle old v).port.cur = some x := by
  obtain ⟨e, he⟩ := startRequests_eq v
  obtain ⟨e', he'⟩ := startRequests_eq (startRequests v)
  rw [settle, settleWith, pumpHost_of_waits (startRequests_waits hw), he', he, arbitrate, if_pos]
  · exact hp
  · show v.port.cur.isSome = true
    rw [hp]
    rfl

/-! The ends of host accesses -/

theorem exec_hostAccessEnd {e : OnEnd} {ph live : Bool} {x y : Option MWord} {answer : Option MWord}
    (hp : s.port.cur = some ⟨.host e ph, a, x, y, live⟩) :
    exec (.hostAccessEnd answer) s = .next (settle s (endHostAccess answer s)) := by
  have ha := portAccess_of hp (p := hostOwner) rfl
  show execHostAccessEnd answer s = _
  rw [execHostAccessEnd, ha]

theorem exec_memoryTimeout {x : Access} (hp : s.port.cur = some x) (landed : Bool) :
    exec (.memoryTimeout landed) s = .next (settle s (timeoutAccess landed x s)) := by
  show execMemoryTimeout landed s = _
  rw [execMemoryTimeout, hp]

theorem endHostAccess_read {answer : Option MWord} (hp : s.port.cur = some ⟨.host .nothing false, a, none, none, true⟩)
    (hw : answer.getD (s.read a) = w) :
    endHostAccess answer s = (if wordOk w then s.freePort else s.freePort.error .passParity false a w).endHost a false false w := by
  have hans : answered answer ⟨.host .nothing false, a, none, none, true⟩ s = w := hw
  simp only [endHostAccess, hp, endWrite, landWrite, Option.getD_none, hans, hostEnded, takeOnEnd, Bool.false_eq_true, if_false, if_true,
    Option.isNone_none, Bool.true_and, Option.isSome_none]
  cases wordOk w <;> rfl

theorem endHostAccess_pair {e : OnEnd} {h : MWord} {answer : Option MWord}
    (hp : s.port.cur = some ⟨.host e false, a, some w, some h, true⟩) :
    endHostAccess answer s =
      { s.write a w with port := { s.port with cur := some ⟨.host e false, a + 1, some h, none, true⟩ } } := by
  simp only [endHostAccess, hp, endWrite, landWrite, Option.getD_some, Bool.false_eq_true, if_false]
  rfl

theorem testedRead_settled (a : Addr) (w : MWord) (s : State) :
    Settled (tested a w s) (if wordOk w then s.freePort else s.freePort.error .passParity false a w) := by
  unfold tested
  split
  · exact freePort_settled s
  · exact (freePort_settled s).error ..

/-- The memory after an access that has timed out. -/
theorem landed_of_mem (hf : MemoryForm s) {x : Access} {landed : Bool}
    (hm : t.mem = (if landed then landWrite x s else s).mem) : Landed s x.addr x.write landed t := by
  refine ⟨fun v hv hl => ?_, fun h => ?_⟩
  · rw [if_pos hl, landWrite_some hv] at hm
    exact .of_mem hf hm
  · refine .of_mem (hm.trans ?_)
    split
    · next hl =>
      rcases h with h | h
      · rw [landWrite_none h]
      · rw [h] at hl; cases hl
    · rfl

/-- The state in which the owner of a timed-out access acts: the port is free, and the fault is handed on (R162, R167). -/
def timedOut (landed : Bool) (x : Access) (s : State) : State :=
  timeoutError x (if landed then landWrite x s else s).freePort

theorem timeoutAccess_eq (landed : Bool) (x : Access) (s : State) : timeoutAccess landed x s = ownerTimeout x (timedOut landed x s) := rfl

theorem timedOut_settled (landed : Bool) (x : Access) (s : State) :
    Settled (withError .memTimeout (!hostOwner x.owner) x.addr (x.write.getD ⟨0, 3⟩) s) (timedOut landed x s) := by
  refine Settled.error ?_ ..
  split
  · obtain ⟨m, hm⟩ := landWrite_eq x s
    rw [hm]
    constructor <;> first | rfl | exact fun _ => rfl
  · exact freePort_settled s

theorem timedOut_mem (landed : Bool) (x : Access) (s : State) : (timedOut landed x s).mem = (if landed then landWrite x s else s).mem := rfl

theorem timedOut_bus (landed : Bool) (x : Access) (s : State) : (timedOut landed x s).bus = s.bus := by
  show (if landed then landWrite x s else s).bus = s.bus
  split
  · obtain ⟨m, hm⟩ := landWrite_eq x s
    rw [hm]
  · rfl

/-- Settles O9: the end of a host access is HRDY, or HBERRn after a timeout, and nothing of it is left under way. -/
theorem hostAccessEnds : Obligations.HostAccessEnds := by
  refine ⟨fun s a answer => ⟨fun w hl hp hw => ⟨_, exec_hostAccessEnd hp, ?_⟩, fun w hf hl hp => ⟨_, exec_hostAccessEnd hp, ?_⟩,
    fun w h e hf hl hp => ⟨_, exec_hostAccessEnd hp, ?_⟩, fun hp => ?_⟩, fun s a w second e landed hf hl hp => ⟨_, exec_memoryTimeout hp landed, ?_⟩⟩
  · rw [endHostAccess_read hp hw]
    have hset := (testedRead_settled a w s).endHost a false false w
    have hwaits : HostWaits ((if wordOk w then s.freePort else s.freePort.error .passParity false a w).endHost a false false w) :=
      .of_empty (by split <;> exact hl.queue)
    exact ⟨settle_same hwaits (by split <;> rfl) s, settle_settled hwaits hset s⟩
  · rw [endHostAccess_write answer hp]
    have hwaits : HostWaits (hostDone s.port.lastOwn a w s) := .of_empty hl.queue
    exact ⟨settle_put hf hwaits rfl s, settle_settled hwaits (hostDone_settled _ a w (.refl s)) s⟩
  · rw [endHostAccess_pair hp]
    have hwaits : HostWaits { s.write a w with port := { s.port with cur := some ⟨.host e false, a + 1, some h, none, true⟩ } } :=
      .of_empty hl.queue
    refine ⟨settle_put hf hwaits rfl s, settle_settled hwaits ?_ s, settle_port hwaits rfl s⟩
    constructor <;> first | rfl | exact fun _ => rfl
  · have ha : portAccess hostOwner s = none := by simp [portAccess, hp]
    show execHostAccessEnd answer s = _
    rw [execHostAccessEnd, ha]
  · rw [timeoutAccess_eq]
    have hwaits : HostWaits (ownerTimeout ⟨.host e false, a, w, second, true⟩ (timedOut landed ⟨.host e false, a, w, second, true⟩ s)) :=
      .of_empty (by rw [← hl.queue, ← timedOut_bus landed ⟨.host e false, a, w, second, true⟩ s]; rfl)
    refine ⟨settle_settled hwaits ((timedOut_settled landed ⟨.host e false, a, w, second, true⟩ s).endHost ..) s,
      landed_of_mem hf ((settle_calm hwaits s).mem.trans (timedOut_mem landed ⟨.host e false, a, w, second, true⟩ s))⟩

end Sys2Proof.Machine

/-! What the cameras' operations leave alone: memory, the host's side and the load (R48, R54, R73, R106, R107, R110). -/

namespace Sys2Proof.Machine

variable {s u v t : State} {c : Cam} {w : MWord} {a : Addr} {n : Nat}

/-- t differs from s in what is inside the part alone: memory, the host's side, the load, and whether the host holds the port stand. -/
structure Inside (s t : State) : Prop where
  mem : t.mem = s.mem
  bus : t.bus = s.bus
  startup : t.startup = s.startup
  base : t.base = s.base
  pins : t.pins = s.pins
  fences : t.fences = s.fences
  lines : t.lines = s.lines
  host : (t.port.cur.any fun a => hostOwner a.owner) = s.port.cur.any fun a => hostOwner a.owner

theorem Inside.refl (s : State) : Inside s s := ⟨rfl, rfl, rfl, rfl, rfl, rfl, rfl, rfl⟩

theorem Inside.trans (h : Inside s t) (k : Inside t u) : Inside s u :=
  ⟨k.mem.trans h.mem, k.bus.trans h.bus, k.startup.trans h.startup, k.base.trans h.base, k.pins.trans h.pins, k.fences.trans h.fences,
    k.lines.trans h.lines, k.host.trans h.host⟩

theorem Inside.waits (h : Inside s t) (hw : HostWaits s) : HostWaits t := hw.congr h.startup h.bus h.host

theorem Touches.inside (h : Touches c s t) : Inside s t :=
  ⟨h.mem, h.bus, h.startup, h.base, h.pins, h.fences, h.lines, by rw [h.port]⟩

theorem error_inside (cls : ErrClass) (own : Bool) (a : Addr) (w : MWord) (s : State) : Inside s (s.error cls own a w) := ⟨rfl, rfl, rfl, rfl, rfl, rfl, rfl, rfl⟩

theorem modStat_inside (f : StatusWriter → StatusWriter) (s : State) : Inside s (s.modStat f) := ⟨rfl, rfl, rfl, rfl, rfl, rfl, rfl, rfl⟩

theorem modShot_inside (f : ShotEngine → ShotEngine) (s : State) : Inside s (s.modShot f) := ⟨rfl, rfl, rfl, rfl, rfl, rfl, rfl, rfl⟩

theorem modCam_inside (c : Cam) (f : Camera → Camera) (s : State) : Inside s (s.modCam c f) := (modCam_touches c f s).inside

theorem recordResult_inside (c : Cam) (tag : BitVec 8) (kind : BitVec 4) (code : Code) (detail : BitVec 16) (s : State) :
    Inside s (recordResult c tag kind code detail s) := (recordResult_touches c tag kind code detail s).inside

theorem endActive_inside (c : Cam) (code : Code) (detail : BitVec 16) (s : State) : Inside s (endActive c code detail s) :=
  (endActive_touches c code detail s).inside

theorem paint_inside (f : Fin 32 → Fin 32 → Cell → Cell) (s : State) : Inside s (s.paint f) := (paint_touches 0 f s).inside

theorem freeOutside_inside (c : Cam) (r : Option Rect) (s : State) : Inside s (s.freeOutside c r) := paint_inside _ s

theorem takeHead_inside (c : Cam) (s : State) : Inside s (takeHead c s) := (takeHead_touches c s).inside

theorem orphanPort_inside (p : Owner → Bool) (s : State) : Inside s (s.orphanPort p) := by
  obtain ⟨q, hq, -, hh⟩ := orphanPort_cases p s
  rw [hq]
  exact ⟨rfl, rfl, rfl, rfl, rfl, rfl, rfl, hh⟩

theorem cancelWork_inside (p : ShotReq → Bool) (s : State) : Inside s (cancelWork p s) := by
  unfold cancelWork
  dsimp only
  split
  · split
    · exact (modShot_inside _ s).trans ((modShot_inside _ _).trans (orphanPort_inside _ _))
    · exact modShot_inside _ s
  · exact modShot_inside _ s

theorem nextHead_inside {r : State × Bool} (h : Inside s r.1) : Inside s (nextHead c r) := by
  unfold nextHead
  split
  · exact h.trans (takeHead_inside c _)
  · exact h

theorem examOne_inside (s : State) (c : Cam) : Inside s (examOne s c) := by
  unfold examOne
  split
  · exact nextHead_inside (tryClaim_touches c s).inside
  · exact .refl s

/-- A fold of steps that stay inside stays inside. -/
theorem foldl_inside {f : State → Cam → State} (hf : ∀ s c, Inside s (f s c)) (l : List Cam) (s : State) : Inside s (l.foldl f s) := by
  induction l generalizing s with
  | nil => exact .refl s
  | cons c l ih => exact (hf s c).trans (ih _)

theorem releaseExam_inside (s : State) : Inside s (releaseExam s) := foldl_inside examOne_inside _ s

theorem giveBack_inside (c : Cam) (x y : Int) (s : State) : Inside s (giveBack c x y s) := by
  unfold giveBack
  dsimp only
  split
  · exact ((paint_inside _ s).trans (modCam_inside c _ _)).trans (releaseExam_inside _)
  · exact .refl s

theorem abandonCue_inside (c : Cam) (s : State) : Inside s (abandonCue c s) :=
  ((endActive_inside c _ _ s).trans (modCam_inside c _ _)).trans (giveBack_inside c _ _ _)

theorem abandonMove_inside (c : Cam) (s : State) : Inside s (abandonMove c s) := (abandonCue_inside c s).trans (takeHead_inside c _)

theorem completeMove_inside (c : Cam) (s : State) : Inside s (completeMove c s) :=
  (((endActive_inside c _ _ s).trans (modCam_inside c _ _)).trans (giveBack_inside c _ _ _)).trans (takeHead_inside c _)

/-! Cues -/

theorem cutActive_inside (c : Cam) (s : State) : Inside s (cutActive c s) := by
  unfold cutActive
  split
  · exact ((cancelWork_inside _ s).trans (endActive_inside c _ _ _)).trans (takeHead_inside c _)
  · exact (endActive_inside c _ _ s).trans (takeHead_inside c _)
  · exact modCam_inside c _ s
  · exact modCam_inside c _ s
  · exact abandonMove_inside c s
  · exact .refl s

theorem joinQueue_inside (c : Cam) (q : Cue) (s : State) : Inside s (joinQueue c q s) := by
  unfold joinQueue
  split
  · exact (modCam_inside c _ s).trans (cutActive_inside c _)
  · exact (modCam_inside c _ s).trans (takeHead_inside c _)

theorem cueGoto_inside (c : Cam) (tag : BitVec 8) (s : State) : Inside s (cueGoto c tag s) := by
  unfold cueGoto
  dsimp only
  split
  · exact recordResult_inside ..
  · split
    · exact recordResult_inside ..
    · split
      · exact recordResult_inside ..
      · exact joinQueue_inside ..

theorem cueReturn_inside (c : Cam) (tag : BitVec 8) (s : State) : Inside s (cueReturn c tag s) := by
  unfold cueReturn
  dsimp only
  split
  · exact recordResult_inside ..
  · split
    · exact recordResult_inside ..
    · exact joinQueue_inside ..

theorem cueResume_inside (c : Cam) (tag : BitVec 8) (s : State) : Inside s (cueResume c tag s) := by
  unfold cueResume
  dsimp only
  split
  · exact recordResult_inside ..
  · split
    · exact recordResult_inside ..
    · unfold acceptResume
      dsimp only
      split
      · refine nextHead_inside (Inside.trans ?_ (recordResult_inside ..))
        split
        · exact ((modCam_inside c _ s).trans (modCam_inside c _ _)).trans (reasonsChanged_touches c _).inside
        · exact (modCam_inside c _ s).trans (modCam_inside c (fun k => { k with waitStop := false }) _)
      · exact ((modCam_inside c _ s).trans (modCam_inside c _ _)).trans (recordResult_inside ..)
      · exact ((modCam_inside c _ s).trans (modCam_inside c _ _)).trans (recordResult_inside ..)
      · exact (modCam_inside c _ s).trans (recordResult_inside ..)

theorem cueAbandon_inside (c : Cam) (tag : BitVec 8) (s : State) : Inside s (cueAbandon c tag s) := by
  unfold cueAbandon
  split
  · exact (((cancelWork_inside _ s).trans (endActive_inside c _ _ _)).trans (recordResult_inside ..)).trans (takeHead_inside c _)
  · exact ((endActive_inside c _ _ s).trans (recordResult_inside ..)).trans (takeHead_inside c _)
  · exact (modCam_inside c _ s).trans (recordResult_inside ..)
  · exact (modCam_inside c _ s).trans (recordResult_inside ..)
  · exact ((abandonCue_inside c s).trans (recordResult_inside ..)).trans (takeHead_inside c _)
  · exact recordResult_inside ..

theorem setp_inside (p : SetpointWriter) (s : State) : Inside s { s with setp := p } := ⟨rfl, rfl, rfl, rfl, rfl, rfl, rfl, rfl⟩

theorem askFill_inside (c : Cam) (s : State) : Inside s (askFill c s) := by
  unfold askFill
  split
  · exact .refl s
  · exact setp_inside _ s

theorem abandonCapture_inside (c : Cam) (s : State) : Inside s (abandonCapture c s) := by
  unfold abandonCapture
  split
  · exact (cancelWork_inside _ s).trans (recordResult_inside ..)
  · exact .refl s

theorem adoptQueue_inside (l : List Cam) (s : State) : Inside s { s with adoptQueue := l } := ⟨rfl, rfl, rfl, rfl, rfl, rfl, rfl, rfl⟩

theorem leaveAdoption_inside (c : Cam) (s : State) : Inside s (s.leaveAdoption c) := ⟨rfl, rfl, rfl, rfl, rfl, rfl, rfl, rfl⟩

theorem disableAdopting_inside (c : Cam) (tag : BitVec 8) (s : State) : Inside s (disableAdopting c tag s) := by
  unfold disableAdopting
  dsimp only
  have hleft : Inside s ((s.leaveAdoption c).orphanPort (adoptionOwner c)) := (leaveAdoption_inside c s).trans (orphanPort_inside _ _)
  refine Inside.trans ?_ (releaseExam_inside _)
  refine Inside.trans ?_ (recordResult_inside ..)
  split
  · exact (hleft.trans (modCam_inside c _ _)).trans (recordResult_inside ..)
  · exact hleft.trans (modCam_inside c _ _)

theorem withdrawn_inside (c : Cam) (s : State) : Inside s (withdrawn c s) :=
  (((cancelWork_inside _ s).trans (abandonCapture_inside c _)).trans (orphanPort_inside _ _)).trans
    ((setp_inside _ _).trans (setp_inside _ _))

theorem disableEnabled_inside (c : Cam) (tag : BitVec 8) (s : State) : Inside s (disableEnabled c tag s) := by
  rw [disableEnabled_eq]
  exact ((((withdrawn_inside c s).trans (freeOutside_inside c none _)).trans (modCam_inside c disabledCamera _)).trans
    (recordResult_inside ..)).trans (releaseExam_inside _)

theorem cueHalt_inside (c : Cam) (tag : BitVec 8) (s : State) : Inside s (cueHalt c tag s) := by
  unfold cueHalt
  split
  · exact (modCam_inside c _ s).trans (recordResult_inside ..)
  all_goals exact recordResult_inside ..

theorem cueOverride_inside (c : Cam) (tag : BitVec 8) (s : State) : Inside s (cueOverride c tag s) := by
  unfold cueOverride
  dsimp only
  split
  · exact recordResult_inside ..
  · exact (modCam_inside c _ s).trans (recordResult_inside ..)

theorem cueFlush_inside (c : Cam) (tag : BitVec 8) (s : State) : Inside s (cueFlush c tag s) := by
  unfold cueFlush
  dsimp only
  split
  · exact recordResult_inside ..
  · exact (modCam_inside c _ s).trans (recordResult_inside ..)

theorem cueCapture_inside (c : Cam) (tag : BitVec 8) (s : State) : Inside s (cueCapture c tag s) := by
  unfold cueCapture
  dsimp only
  split
  · exact recordResult_inside ..
  · split
    · exact recordResult_inside ..
    · split
      · exact recordResult_inside ..
      · exact modShot_inside _ s

theorem cueDirect_inside (c : Cam) (tag : BitVec 8) (s : State) : Inside s (cueDirect c tag s) := by
  unfold cueDirect
  split
  · exact ((modCam_inside c _ s).trans (askFill_inside c _)).trans (recordResult_inside ..)
  · exact recordResult_inside ..

theorem cueRelease_inside (c : Cam) (tag : BitVec 8) (s : State) : Inside s (cueRelease c tag s) := by
  unfold cueRelease
  split
  · exact ((modCam_inside c _ s).trans (setp_inside _ _)).trans ((recordResult_inside ..).trans (takeHead_inside c _))
  · exact recordResult_inside ..

theorem cueEnable_inside (c : Cam) (tag : BitVec 8) (s : State) : Inside s (cueEnable c tag s) := by
  unfold cueEnable
  split
  · exact (modCam_inside c _ s).trans (adoptQueue_inside _ _)
  · exact recordResult_inside ..

theorem cueDisable_inside (c : Cam) (tag : BitVec 8) (s : State) : Inside s (cueDisable c tag s) := by
  unfold cueDisable
  split
  · exact recordResult_inside ..
  · exact disableAdopting_inside c tag s
  · exact disableEnabled_inside c tag s

theorem inside_ite {p : Prop} [Decidable p] {x y : State} (hx : Inside s x) (hy : Inside s y) : Inside s (if p then x else y) := by
  split
  · exact hx
  · exact hy

/-- The judging of a cue stays inside the part (R66). -/
theorem judgeCue_inside (c : Cam) (tag : BitVec 8) (kind : BitVec 4) (s : State) : Inside s (judgeCue c tag kind s) :=
  inside_ite (cueGoto_inside c tag s) <| inside_ite (cueReturn_inside c tag s) <| inside_ite (cueHalt_inside c tag s) <|
  inside_ite (cueResume_inside c tag s) <| inside_ite (cueAbandon_inside c tag s) <| inside_ite (cueOverride_inside c tag s) <|
  inside_ite (cueFlush_inside c tag s) <| inside_ite (cueCapture_inside c tag s) <| inside_ite (cueDirect_inside c tag s) <|
  inside_ite (cueRelease_inside c tag s) <| inside_ite (cueEnable_inside c tag s) <| inside_ite (cueDisable_inside c tag s) <|
  recordResult_inside ..

end Sys2Proof.Machine

/-! Posts: what a judged cue leaves, and the refusals (R66, R68, R70, R84). -/

namespace Sys2Proof.Machine

variable {s u v t : State} {c : Cam} {w : MWord} {a : Addr} {n : Nat} {tag : BitVec 8} {spare kind : BitVec 4} {par : BitVec 2}

/-! What a post leaves -/

theorem posted_cam (b : Bool) (s : State) (c : Cam) (w : MWord) (d : Cam) : (posted b s c w).cam d = s.cam d := rfl

theorem posted_settled (b : Bool) (s : State) (c : Cam) (w : MWord) :
    Settled (hostEnds (addrOf s.base (mailboxOff c 0)) true false w s) (posted b s c w) := hostDone_settled b _ w (.refl s)

theorem posted_waits (h : Posting s c (commandWord tag spare kind par)) (b : Bool) : HostWaits (posted b s c (commandWord tag spare kind par)) :=
  .of_empty h.completing.queue

/-- The word of a post is in memory, whatever its judging does. -/
theorem post_put (h : Posting s c (commandWord tag spare kind par)) :
    MemoryPut s (addrOf s.base (mailboxOff c 0)) (commandWord tag spare kind par) (postKind c tag spare kind par s) := by
  obtain ⟨b, hb⟩ := postKind_judged h
  have hin := judgeCue_inside c tag kind (posted b s c (commandWord tag spare kind par))
  rw [hb]
  exact settleWith_put h.completing.memory (hin.waits (posted_waits h b)) hin.mem _ _

/-- What the judging of a post leaves once its requests have started is what the post leaves. -/
theorem post_started (h : Posting s c (commandWord tag spare kind par))
    (hj : ∀ b, Settled u (startRequests (judgeCue c tag kind (posted b s c (commandWord tag spare kind par))))) :
    Settled u (postKind c tag spare kind par s) := by
  obtain ⟨b, hb⟩ := postKind_judged h
  have hin := judgeCue_inside c tag kind (posted b s c (commandWord tag spare kind par))
  rw [hb]
  exact settleWith_started (hin.waits (posted_waits h b)) (hj b) _ _

/-- What the judging of a post leaves is what the post leaves. -/
theorem post_judged (h : Posting s c (commandWord tag spare kind par))
    (hj : ∀ b, Settled u (judgeCue c tag kind (posted b s c (commandWord tag spare kind par)))) :
    Settled u (postKind c tag spare kind par s) :=
  post_started h fun b => (hj b).trans (startRequests_calm _).toSettled

/-- A result recorded. -/
theorem Settled.result (h : Settled u v) (c : Cam) (tag : BitVec 8) (kind : BitVec 4) (code : Code) (detail : BitVec 16) :
    Settled
      { withCam c (withResult tag kind code detail (u.cam c)) u with stat := { u.stat with flags := u.stat.flags ||| resultFlags code } }
      (recordResult c tag kind code detail v) := (h.modCam c _).flag _

/-- A result that is all a post leaves, after a change of its camera. -/
theorem posted_result (b : Bool) (f : Camera → Camera) (code : Code) (detail : BitVec 16) :
    Settled (afterPost s c w (withResult tag kind code detail (f (s.cam c))) code)
      (recordResult c tag kind code detail ((posted b s c w).modCam c f)) := recordResult_settled f

theorem posted_recorded (b : Bool) (code : Code) (detail : BitVec 16) :
    Settled (afterPost s c w (withResult tag kind code detail (s.cam c)) code) (recordResult c tag kind code detail (posted b s c w)) :=
  (posted_settled b s c w).result c tag kind code detail

/-! Refusals by the state -/

theorem cueHalt_refused (h : movingState (v.cam c).state = false) (tag : BitVec 8) : cueHalt c tag v = refuseState c tag 3 v := by
  unfold cueHalt
  split
  case h_4 => rfl
  all_goals
    next hs => rw [hs] at h; cases h

theorem cueResume_refused (h : enabledState (v.cam c).state = false ∨ (v.cam c).state = .halting ∧ (v.cam c).abandon = true)
    (tag : BitVec 8) : cueResume c tag v = refuseState c tag 4 v := by
  refine if_pos ?_
  rcases h with h | h
  · cases hs : (v.cam c).state <;> rw [hs] at h <;> first | exact .inl rfl | exact .inr (.inl rfl) | cases h
  · exact .inr (.inr h)

theorem cueAbandon_refused (h : activeState (v.cam c).state = false) (tag : BitVec 8) : cueAbandon c tag v = refuseState c tag 5 v := by
  unfold cueAbandon
  split
  case h_6 => rfl
  all_goals
    next hs => rw [hs] at h; cases h

theorem notAccepts (h : enabledState (v.cam c).state = false) : (!acceptsCues (v.cam c)) = true := by rw [acceptsCues, h]; rfl

theorem cueDirect_refused (h : (v.cam c).state ≠ .idle) (tag : BitVec 8) : cueDirect c tag v = refuseState c tag 9 v := by
  unfold cueDirect
  split
  · next hs => exact absurd hs h
  · rfl

theorem cueRelease_refused (h : (v.cam c).state ≠ .direct) (tag : BitVec 8) : cueRelease c tag v = refuseState c tag 10 v := by
  unfold cueRelease
  split
  · next hs => exact absurd hs h
  · rfl

theorem cueEnable_refused (h : (v.cam c).state ≠ .offline) (tag : BitVec 8) : cueEnable c tag v = refuseState c tag 11 v := by
  unfold cueEnable
  split
  · next hs => exact absurd hs h
  · rfl

theorem cueDisable_refused (h : (v.cam c).state = .offline) (tag : BitVec 8) : cueDisable c tag v = refuseState c tag 12 v := by
  simp only [cueDisable, h]

/-- A cue is refused by the table of R70. -/
theorem judgeCue_refused (h : refusedIn kind (v.cam c)) (tag : BitVec 8) : judgeCue c tag kind v = refuseState c tag kind v := by
  rcases h with ⟨rfl | rfl, h⟩ | ⟨rfl, h⟩ | ⟨rfl, h⟩ | ⟨rfl, h⟩ | ⟨rfl | rfl | rfl, h⟩ | ⟨rfl, h⟩ | ⟨rfl, h⟩ | ⟨rfl, h⟩ | ⟨rfl, h⟩
  · exact (judgeCue_goto ..).trans (if_pos h)
  · exact (judgeCue_return ..).trans (if_pos h)
  · exact (judgeCue_halt ..).trans (cueHalt_refused h tag)
  · exact (judgeCue_resume ..).trans (cueResume_refused h tag)
  · exact (judgeCue_abandon ..).trans (cueAbandon_refused h tag)
  · exact (judgeCue_override ..).trans (if_pos (notAccepts h))
  · exact (judgeCue_flush ..).trans (if_pos (notAccepts h))
  · exact (judgeCue_capture ..).trans (if_pos (notAccepts h))
  · exact (judgeCue_direct ..).trans (cueDirect_refused h tag)
  · exact (judgeCue_release ..).trans (cueRelease_refused h tag)
  · exact (judgeCue_enable ..).trans (cueEnable_refused h tag)
  · exact (judgeCue_disable ..).trans (cueDisable_refused h tag)

/-! Faulty words -/

theorem takePost_faulty (h : postFaults (v.cam c) w ≠ 0) :
    takePost c w v = recordResult c (commandTag w.data) (commandKind w.data) .cueParity (postFaults (v.cam c) w) v := if_pos h

theorem postFaults_unique {k : Camera} {faults : BitVec 16}
    (h : ∀ i < 16, faults.getLsbD i = true ↔ (i = 0 ∧ wordOk w = false) ∨ (∃ n : Fin 4, i = n.val + 1 ∧ k.latches[n].good = false)) :
    postFaults k w = faults :=
  BitVec.eq_of_getLsbD_eq fun i hi => Bool.eq_iff_iff.mpr ((postFaults_getLsbD k w i hi).trans (h i hi).symm)

theorem command_forwarded (c : Cam) (w : MWord) (s u : State) :
    regionWrite (mailboxOff c 0).toNat ⟨addrOf s.base (mailboxOff c 0), some w⟩ w u =
      forward (addrOf s.base (mailboxOff c 0)) (some w) none (.post c) u := by
  rw [regionWrite, regionWord_command]

/-- A post completes, its word tested. -/
theorem post_completes (h : Completing s (addrOf s.base (mailboxOff c 0)) w (.post c)) :
    ∃ b v, (v = s ∨ wordOk w = false ∧ v = s.error .passParity false (addrOf s.base (mailboxOff c 0)) w) ∧
      completeWrite (mailboxOff c 0) w s = settleWith false s (takePost c w (hostDone b (addrOf s.base (mailboxOff c 0)) w v)) := by
  cases hw : wordOk w with
  | true =>
    obtain ⟨b, hb⟩ := completeWrite_done h hw (command_forwarded c w s)
    exact ⟨b, s, .inl rfl, hb⟩
  | false =>
    obtain ⟨b, v, hv, hb⟩ := completeWrite_bad h hw (command_forwarded c w s)
    exact ⟨b, v, hv.imp_right fun h => ⟨rfl, h⟩, hb⟩

theorem and_not_or_self {n : Nat} (x y : BitVec n) : x &&& ~~~(y ||| x) = 0 := by
  ext i hi
  simp only [BitVec.getElem_and, BitVec.getElem_not, BitVec.getElem_or]
  cases x[i] <;> simp

/-- Settles O22: the faults of a post come before its kind, and the table of R70 before the judging. -/
theorem faultyAndWrongPostsAreRefused : Obligations.FaultyAndWrongPostsAreRefused := by
  refine ⟨fun s c tag spare kind par faults h hquiet hbits hne => ⟨_, exec_postOf kind c tag spare par s, ?_⟩,
    fun s c tag spare kind par href h => ⟨_, exec_postOf kind c tag spare par s, post_put h, post_judged h fun b => ?_⟩⟩
  · have hf := postFaults_unique hbits
    obtain ⟨b, v, hv, hb⟩ := post_completes h
    set w := commandWord tag spare kind par with hw
    set v' := hostDone b (addrOf s.base (mailboxOff c 0)) w v with hv'
    have hvcams : v'.cams = s.cams := by rcases hv with rfl | ⟨-, rfl⟩ <;> rfl
    have hjudge : takePost c w v' = recordResult c tag kind .cueParity faults v' := by
      rw [takePost_faulty, hw, commandTag_commandWord, commandKind_commandWord, ← hw, State.cam_congr hvcams c, hf]
      rw [State.cam_congr hvcams c, hf]
      exact hne
    rw [postKind, ← hw, hb, hjudge]
    have hrest : v'.floor = s.floor ∧ v'.shot = s.shot ∧ v'.adoptQueue = s.adoptQueue ∧ v'.timer = s.timer ∧ v'.lines = s.lines ∧
        v'.fences = s.fences ∧ v'.bus.queue = s.bus.queue ∧ v'.mem = memInsert (addrOf s.base (mailboxOff c 0)).toNat w s.mem := by
      rcases hv with rfl | ⟨-, rfl⟩ <;> exact ⟨rfl, rfl, rfl, rfl, rfl, rfl, rfl, rfl⟩
    obtain ⟨hfloor, hshot, hadopt, htimer, hlines, hfences, hqueue, hmem⟩ := hrest
    have hwaits : HostWaits (recordResult c tag kind .cueParity faults v') := .of_empty (hqueue.trans h.queue)
    have hcalm := settleWith_calm hwaits false s
    refine ⟨settleWith_put h.memory hwaits hmem _ _, ?_, hcalm.floor.trans hfloor, (hcalm.shot ?_).trans hshot, hcalm.adoptQueue.trans hadopt,
      hcalm.timer.trans htimer, hcalm.lines.trans hlines, hcalm.fences.trans hfences, ?_, fun hok => ?_⟩
    · rw [hcalm.cams, ← hvcams, ← State.cam_congr hvcams c]
      rfl
    · exact hshot.symm ▸ hquiet
    · rw [hcalm.flags]
      exact and_not_or_self _ v'.stat.flags
    · rcases hv with rfl | ⟨hbad, -⟩
      · exact (posted_recorded (s := v) (c := c) (w := w) b .cueParity faults).trans hcalm.toSettled
      · exact absurd (hok.symm.trans hbad) nofun
  · rw [judgeCue_refused (v := posted b s c (commandWord tag spare kind par)) href]
    exact posted_recorded b .wrongState _

end Sys2Proof.Machine

/-! Acting cues: HALT, RESUME, OVERRIDE, FLUSH, CAPTURE, DIRECT, RELEASE and ENABLE (R76 to R82). -/

namespace Sys2Proof.Machine

variable {s u v t : State} {c : Cam} {w : MWord} {a : Addr} {n : Nat} {tag : BitVec 8} {spare kind : BitVec 4} {par : BitVec 2}

/-! Changes of one camera -/

theorem modCam_congr {f g : Camera → Camera} (h : f (s.cam c) = g (s.cam c)) : s.modCam c f = s.modCam c g := by
  rw [State.modCam, State.modCam, h]

/-- The return stack at a move's begin, as the statements write it (R54, R97). -/
theorem stackAtBegin_eq (q : Cue) (k : Camera) : stackAtBegin q k = stackBegun q k := by
  unfold stackAtBegin stackBegun
  have htail : k.stack.tail = k.stack.drop 1 := List.drop_one.symm
  rw [htail]
  generalize (if q.kind = .ret then k.stack.drop 1 else k.stack) = l
  dsimp only
  split
  · split
    · exact List.take_of_length_le (by rw [List.length_cons]; omega)
    · rfl
  · rfl

/-- The begin of a move is the one the statements name (R54). -/
theorem begun_eq {q : Cue} {k : Camera} (h : k.active = some q) : begun k = moveBegun q k := by
  obtain ⟨⟩ := k
  simp only at h
  subst h
  simp only [begun, stackAtBegin_eq]
  rfl

theorem beginMove_moveBegun {q : Cue} (h : (s.cam c).active = some q) : beginMove c s = s.modCam c (moveBegun q) :=
  (beginMove_eq c s).trans (modCam_congr (begun_eq h))

/-! What follows a reason's removal (R51, R52) -/

theorem reasonsChanged_waits (h : (s.cam c).waitStop = true ∨ (s.cam c).waitTally = true) : reasonsChanged c s = (s, false) := by
  refine if_neg fun ⟨_, hs, ht⟩ => ?_
  rcases h with h | h
  · rw [h] at hs; cases hs
  · rw [h] at ht; cases ht

theorem reasonsChanged_begins (hw : (s.cam c).state = .waiting) (hs : (s.cam c).waitStop = false) (ht : (s.cam c).waitTally = false)
    (hf : (s.cam c).waitFloor = false) : reasonsChanged c s = (beginMove c s, false) := by
  simp [reasonsChanged, hw, hs, ht, hf]

theorem reasonsChanged_tries (hw : (s.cam c).state = .waiting) (hs : (s.cam c).waitStop = false) (ht : (s.cam c).waitTally = false)
    (hf : (s.cam c).waitFloor = true) : reasonsChanged c s = tryClaim c s := by
  simp [reasonsChanged, hw, hs, ht, hf]

/-! HALT -/

theorem cueHalt_resting (h : (v.cam c).state = .halting ∨ (v.cam c).state = .halted) (tag : BitVec 8) :
    cueHalt c tag v = cueDone c tag 3 0 v := by
  rcases h with h | h <;> simp only [cueHalt, h]

theorem resting_of_moving {st : CamState} (hm : movingState st = true) (hs : st ≠ .moving) : st = .halting ∨ st = .halted := by
  cases st <;> first | exact .inl rfl | exact .inr rfl | exact absurd rfl hs | cases hm

/-- Settles O28: a HALT drives a MOVING camera into HALTING, and finds nothing to change in the others. -/
theorem haltSlowsTheMove : Obligations.HaltSlowsTheMove := by
  intro s c tag spare par h hm
  refine ⟨_, rfl, post_put h, fun hs => post_judged h fun b => ?_, fun hs => post_judged h fun b => ?_⟩
  · have hs' : ((posted b s c (commandWord tag spare 3 par)).cam c).state = .moving := hs
    rw [judgeCue_halt, cueHalt, hs']
    exact posted_result b (fun k => reformRate { k with halt := true, state := .halting }) .done 0
  · rw [judgeCue_halt, cueHalt_resting (v := posted b s c _) (resting_of_moving hm hs)]
    exact posted_recorded b .done 0

/-! RESUME -/

theorem cueResume_accepted (he : enabledState (v.cam c).state = true) (hn : ¬((v.cam c).state = .halting ∧ (v.cam c).abandon = true))
    (hl : v.lines.stop = false) (tag : BitVec 8) : cueResume c tag v = acceptResume c tag v := by
  have hstate : ¬((v.cam c).state = .offline ∨ (v.cam c).state = .adopting ∨ (v.cam c).state = .halting ∧ (v.cam c).abandon = true) := by
    rintro (hs | hs | hs)
    · rw [hs] at he; cases he
    · rw [hs] at he; cases he
    · exact hn hs
  simp only [cueResume, hstate, hl, if_false, Bool.false_eq_true]

theorem cueResume_stopped (he : enabledState (v.cam c).state = true) (hn : ¬((v.cam c).state = .halting ∧ (v.cam c).abandon = true))
    (hl : v.lines.stop = true) (tag : BitVec 8) : cueResume c tag v = recordResult c tag 4 .stopActive 0 v := by
  have hstate : ¬((v.cam c).state = .offline ∨ (v.cam c).state = .adopting ∨ (v.cam c).state = .halting ∧ (v.cam c).abandon = true) := by
    rintro (hs | hs | hs)
    · rw [hs] at he; cases he
    · rw [hs] at he; cases he
    · exact hn hs
  simp only [cueResume, hstate, hl, if_false, if_true]

/-- The camera whose stop latch and halt mark a RESUME has cleared, and STOP with them (R77). -/
def unstopped (k : Camera) : Camera := { k with stopLatch := false, halt := false, waitStop := false }

theorem acceptResume_moving (h : (v.cam c).state = .halting ∨ (v.cam c).state = .halted) (tag : BitVec 8) :
    acceptResume c tag v =
      cueDone c tag 4 0 (v.modCam c fun k => reformRate { k with stopLatch := false, halt := false, state := .moving }) := by
  rcases h with h | h <;> simp only [acceptResume, h, State.modCam_modCam]

/-- A WAITING camera that a RESUME leaves without STOP. -/
theorem acceptResume_waiting (h : (v.cam c).state = .waiting) (tag : BitVec 8) :
    acceptResume c tag v =
      nextHead c
        (cueDone c tag 4 0 (if (v.cam c).waitStop then reasonsChanged c (v.modCam c unstopped) else (v.modCam c unstopped, false)).1,
          (if (v.cam c).waitStop then reasonsChanged c (v.modCam c unstopped) else (v.modCam c unstopped, false)).2) := by
  simp only [acceptResume, h, State.modCam_modCam]
  rfl

theorem acceptResume_other (h : (v.cam c).state = .idle ∨ (v.cam c).state = .fetching ∨ (v.cam c).state = .moving ∨ (v.cam c).state = .direct)
    (tag : BitVec 8) : acceptResume c tag v = cueDone c tag 4 0 (v.modCam c fun k => { k with stopLatch := false, halt := false }) := by
  rcases h with h | h | h | h <;> simp only [acceptResume, h]

/-- Settles O29: the RESUME is judged by the line, and then by the state. -/
theorem resumeClearsTheLatch : Obligations.ResumeClearsTheLatch := by
  intro s c tag spare par h he hn
  refine ⟨_, rfl, post_put h, fun hl => post_judged h fun b => ?_, fun hl => ?_⟩
  · rw [judgeCue_resume, cueResume_stopped (v := posted b s c _) he hn hl]
    exact posted_recorded b .stopActive 0
  · have hjudge : ∀ b, judgeCue c tag 4 (posted b s c (commandWord tag spare 4 par)) =
        acceptResume c tag (posted b s c (commandWord tag spare 4 par)) := fun b =>
      (judgeCue_resume ..).trans (cueResume_accepted (v := posted b s c _) he hn hl tag)
    refine ⟨fun hs => post_judged h fun b => ?_, fun hs hr => post_judged h fun b => ?_, fun hs hstop ht hf q hq => post_judged h fun b => ?_,
      fun hs => post_judged h fun b => ?_⟩ <;> rw [hjudge]
    · rw [acceptResume_moving (v := posted b s c _) hs]
      exact posted_result b (fun k => reformRate { k with stopLatch := false, halt := false, state := .moving }) .done 0
    · have hstay : (if ((posted b s c (commandWord tag spare 4 par)).cam c).waitStop then
            reasonsChanged c ((posted b s c (commandWord tag spare 4 par)).modCam c unstopped)
          else ((posted b s c (commandWord tag spare 4 par)).modCam c unstopped, false)) =
          ((posted b s c (commandWord tag spare 4 par)).modCam c unstopped, false) := by
        rcases hr with hr | hr
        · exact if_neg (by rw [posted_cam, hr]; nofun)
        · rw [reasonsChanged_waits (.inr (by rw [cam_modCam_self]; exact hr)), ite_self]
      rw [acceptResume_waiting (v := posted b s c _) hs, hstay]
      exact posted_result b unstopped .done 0
    · have hbegin : reasonsChanged c ((posted b s c (commandWord tag spare 4 par)).modCam c unstopped) =
          (((posted b s c (commandWord tag spare 4 par)).modCam c fun k => begun (unstopped k)), false) := by
        rw [reasonsChanged_begins, beginMove_eq, State.modCam_modCam] <;> rw [cam_modCam_self]
        · exact hs
        · rfl
        · exact ht
        · exact hf
      have hactive : (unstopped (s.cam c)).active = some q := hq
      have hset := posted_result (s := s) (c := c) (w := commandWord tag spare 4 par) (tag := tag) (kind := 4) b (fun k => begun (unstopped k)) .done 0
      rw [begun_eq hactive] at hset
      rw [acceptResume_waiting (v := posted b s c _) hs, posted_cam, if_pos hstop, hbegin]
      exact hset
    · rw [acceptResume_other (v := posted b s c _) hs]
      exact posted_result b (fun k => { k with stopLatch := false, halt := false }) .done 0

end Sys2Proof.Machine

/-! Acting cues that enter and leave states: OVERRIDE, FLUSH, CAPTURE, DIRECT, RELEASE and ENABLE (R79 to R82), and a GOTO taken at once
(R48). -/

namespace Sys2Proof.Machine

variable {s u v t : State} {c : Cam} {w : MWord} {a : Addr} {n : Nat} {tag : BitVec 8} {spare kind : BitVec 4} {par : BitVec 2}

/-! OVERRIDE and FLUSH -/

theorem accepts_of_enabled (h : enabledState (v.cam c).state = true) : (!acceptsCues (v.cam c)) = false := by rw [acceptsCues, h]; rfl

theorem clampNat_eq_self {lo hi v : Nat} : clampNat lo hi v = v ↔ lo ≤ v ∧ v ≤ hi ∨ v < lo ∧ lo = v ∨ hi < v ∧ hi = v := by
  unfold clampNat
  split
  · omega
  · split <;> omega

theorem cueOverride_accepted (h : enabledState (v.cam c).state = true) (tag : BitVec 8) :
    cueOverride c tag v =
      recordResult c tag 6
        (if 1 ≤ (v.cam c).latches[0].value.toNat ∧ (v.cam c).latches[0].value.toNat ≤ 256 then .done else .doneClamped)
        (BitVec.ofNat 16 (clampNat 1 256 (v.cam c).latches[0].value.toNat))
        (v.modCam c fun k => reformRate { k with override := clampNat 1 256 (v.cam c).latches[0].value.toNat }) := by
  have hcode : ∀ n, (clampNat 1 256 n = n) = (1 ≤ n ∧ n ≤ 256) := fun n => propext (clampNat_eq_self.trans (by omega))
  simp only [cueOverride, accepts_of_enabled h, Bool.false_eq_true, if_false, hcode]

theorem afterPost_flags (s : State) (c : Cam) (w : MWord) (k : Camera) (p : Prop) [Decidable p] :
    afterPost s c w k (if p then .done else .doneClamped) = afterPost s c w k .done := by split <;> rfl

theorem reformRate_resting {k : Camera} (h : movingState k.state = false) : reformRate k = k := if_neg (by rw [h]; nofun)

theorem reformRate_moving {k : Camera} (h : movingState k.state = true) : reformRate k = { k with rt := rateTarget k } := if_pos h

theorem cueFlush_accepted (h : enabledState (v.cam c).state = true) (tag : BitVec 8) :
    cueFlush c tag v = cueDone c tag 7 (BitVec.ofNat 16 (v.cam c).queue.length) (v.modCam c fun k => { k with queue := [] }) := by
  simp only [cueFlush, accepts_of_enabled h, Bool.false_eq_true, if_false]

/-- Settles O33: both cues change their camera and record one result. -/
theorem overrideAndFlush : Obligations.OverrideAndFlush := by
  refine ⟨fun s c tag spare par n v h he hn hv => ⟨_, rfl, post_put h, ?_⟩,
    fun s c tag spare par h he => ⟨_, rfl, post_put h, post_judged h fun b => ?_⟩⟩
  · have hclamp : clampNat 1 256 n = v := hv.symm
    have hset : ∀ b, Settled
        (afterPost s c (commandWord tag spare 6 par)
          (withResult tag 6 (if 1 ≤ n ∧ n ≤ 256 then .done else .doneClamped) (BitVec.ofNat 16 v)
            (reformRate { s.cam c with override := v })) .done)
        (judgeCue c tag 6 (posted b s c (commandWord tag spare 6 par))) := fun b => by
      rw [judgeCue_override, cueOverride_accepted (v := posted b s c _) he, posted_cam, ← hn, hclamp,
        ← afterPost_flags s c _ _ (1 ≤ n ∧ n ≤ 256)]
      exact posted_result b (fun k => reformRate { k with override := v }) _ _
    refine ⟨fun hm => post_judged h fun b => ?_, fun hm => post_judged h fun b => ?_⟩
    · have := hset b
      rwa [reformRate_resting (k := { s.cam c with override := v }) hm] at this
    · have := hset b
      rwa [reformRate_moving (k := { s.cam c with override := v }) hm] at this
  · rw [judgeCue_flush, cueFlush_accepted (v := posted b s c _) he]
    exact posted_result b (fun k => { k with queue := [] }) .done _

/-! CAPTURE -/

theorem outstandingCapture_isSome : (outstandingCapture c v).isSome = true ↔
    ∃ r, (r ∈ v.shot.fifo ∨ ∃ op, v.shot.op = some op ∧ op.req = r) ∧ r.cam = c ∧ r.work ≠ .fetch := by
  simp only [outstandingCapture, List.find?_isSome, List.mem_append, List.mem_map, Option.mem_toList, captureOf, Bool.and_eq_true,
    beq_iff_eq, bne_iff_ne]
  constructor <;> rintro ⟨r, hr, hc⟩ <;> exact ⟨r, hr.symm, hc⟩

/-- A post that changes no camera. -/
theorem posted_quiet (b : Bool) (s : State) (c : Cam) (w : MWord) : Settled (afterQuietPost s c w (s.cam c)) (posted b s c w) := by
  have h : Settled (hostEnds (addrOf s.base (mailboxOff c 0)) true false w (withCam c (s.cam c) s)) (posted b s c w) := by
    rw [withCam_self]; exact posted_settled b s c w
  exact h

/-- A request that joins the FIFO of a quiet Shot Engine starts at once when it is free (R87). -/
theorem shotStarted_joined {e : ShotEngine} (h : ShotQuiet e) (r : ShotReq) :
    shotStarted (e.fifo ++ [r]) e.op = if e.op = none then ⟨[], some ⟨r, [], 0, 1, false⟩, []⟩ else { e with fifo := e.fifo ++ [r] } := by
  obtain ⟨fifo, op, arrivals⟩ := e
  obtain ⟨ha, hf⟩ := h
  simp only at ha hf
  subst ha
  cases op with
  | none => rw [hf rfl]; rfl
  | some op => rw [shotStarted_busy]; rfl

/-- Settles O34: the checks of R81 in their order, and the request's place in the Shot Engine. -/
theorem captureIsAsked : Obligations.CaptureIsAsked := by
  intro s c tag spare par req h he hquiet hreq
  have hjudge : ∀ b, judgeCue c tag 8 (posted b s c (commandWord tag spare 8 par)) =
      if 63 < (s.cam c).latches[0].value.toNat then
        recordResult c tag 8 .badArg (s.cam c).latches[0].value (posted b s c (commandWord tag spare 8 par))
      else if (outstandingCapture c s).isSome then recordResult c tag 8 .busy 0 (posted b s c (commandWord tag spare 8 par))
      else (posted b s c (commandWord tag spare 8 par)).modShot fun e => { e with fifo := e.fifo ++ [req] } := fun b => by
    have haccept := accepts_of_enabled (v := posted b s c (commandWord tag spare 8 par)) he
    rw [judgeCue_capture, cueCapture, haccept, hreq]
    rfl
  refine ⟨_, rfl, post_put h, fun harg => post_judged h fun b => ?_, fun harg => ⟨fun hbusy => post_judged h fun b => ?_,
    fun hfree => post_started h fun b => ?_⟩⟩ <;> rw [hjudge]
  · rw [if_pos harg]
    exact posted_recorded b .badArg _
  · rw [if_neg (by omega), if_pos (outstandingCapture_isSome.mpr hbusy)]
    exact posted_recorded b .busy 0
  · have hnone : ¬((outstandingCapture c s).isSome = true) := fun hsome => by
      obtain ⟨r, hr, hc, hw⟩ := outstandingCapture_isSome.mp hsome
      exact hw (hfree r hr hc)
    have harg' : ¬63 < (s.cam c).latches[0].value.toNat := by omega
    have hjoin := (posted_quiet b s c (commandWord tag spare 8 par)).reshoot { s.shot with fifo := s.shot.fifo ++ [req] }
      (q := (posted b s c (commandWord tag spare 8 par)).port) rfl
    have hstart := hjoin.started (o := none) hquiet.1
    dsimp only [Option.toList_none] at hstart
    rw [List.append_nil, shotStarted_joined hquiet] at hstart
    rw [if_neg harg', if_neg hnone]
    exact hstart

end Sys2Proof.Machine

/-! DIRECT, RELEASE and ENABLE (R62, R63, R82), and a move cue posted to an IDLE camera (R48, R71). -/

namespace Sys2Proof.Machine

variable {s u v t : State} {c : Cam} {w : MWord} {a : Addr} {n : Nat} {tag : BitVec 8} {spare kind : BitVec 4} {par : BitVec 2}

/-! The grant at the end of an event that leaves the port free -/

/-- With the port free and no host access asking, an event ends with the grant of the first own requester; what starts the Shot Engine and marks
records changes nothing else. -/
theorem settleWith_first (hw : HostWaits v) (hp : v.port.cur = none) (hr : v.bus.req = none) (old : State) :
    ∃ e m, settleWith false old v = (ownGrants { v with shot := e, stat := m }).head?.getD { v with shot := e, stat := m } := by
  obtain ⟨e, he⟩ := startRequests_eq v
  refine ⟨e, (markRecords old (startRequests v)).stat, ?_⟩
  rw [settleWith, pumpHost_of_waits (startRequests_waits hw), startRequests_idem, he, arbitrate]
  have hcur : (markRecords old { v with shot := e }).port.cur.isSome = false := by
    show v.port.cur.isSome = false
    rw [hp]
    rfl
  have hhost : grantHost (markRecords old { v with shot := e }) = none := grantHost_none hr
  simp only [hcur, Bool.false_eq_true, if_false, ruleGrant, hhost]
  rfl

theorem ownGrants_setpoint (h : grantSetpoint s = some t) : (ownGrants s).head? = some t := by
  simp [ownGrants, h]

theorem maskAxes_first {m : BitVec 7} {x : Axis} (h : inMask m x = true) (hb : ∀ y : Axis, y < x → inMask m y = false) :
    ∃ axes, maskAxes m = x :: axes := by
  cases hm : maskAxes m with
  | nil =>
    have := (List.mem_filter (p := inMask m)).mpr ⟨List.mem_finRange x, h⟩
    rw [show List.filter (inMask m) (List.finRange 7) = [] from hm] at this
    cases this
  | cons y axes =>
    have hsorted : (y :: axes).Pairwise (· < ·) := hm ▸ (List.pairwise_lt_finRange 7).filter _
    have hx : x ∈ y :: axes := hm ▸ List.mem_filter.mpr ⟨List.mem_finRange x, h⟩
    have hy : inMask m y = true := by
      have : y ∈ maskAxes m := hm ▸ List.mem_cons_self
      exact (List.mem_filter.mp this).2
    rcases List.mem_cons.mp hx with rfl | hx
    · exact ⟨axes, rfl⟩
    · have := hb y ((List.pairwise_cons.mp hsorted).1 x hx)
      rw [hy] at this
      cases this

/-- A fill goes before the write-outs that have not begun (R140; log 19). -/
theorem grantSetpoint_fill {x : Axis} {axes : List Axis} {rest : List Fill} (hf : s.setp.fills = ⟨c, x :: axes⟩ :: rest)
    (hw : ∀ w ∈ s.setp.writeOuts, w.granted = 0) : grantSetpoint s = some (grantFill ⟨c, x :: axes⟩ x axes rest s) := by
  have hfill : grantFirstFill s = some (grantFill ⟨c, x :: axes⟩ x axes rest s) := by rw [grantFirstFill, hf]
  cases ho : s.setp.writeOuts with
  | nil => rw [grantSetpoint, ho]; exact hfill
  | cons o l =>
    have hzero : ¬0 < o.granted := by rw [hw o (ho ▸ List.mem_cons_self)]; omega
    simp only [grantSetpoint, ho, hzero, if_false, hfill]
    rfl

/-! The head taken after a post -/

theorem withCam_withCam (c : Cam) (k k' : Camera) (s : State) : withCam c k (withCam c k' s) = withCam c k s := by
  have hset : (s.cams.set c k').set c k = s.cams.set c k := Vector.set_set ..
  rw [withCam, withCam, withCam]
  exact congrArg (fun cs : Vector Camera 8 => { s with cams := cs }) hset

theorem Settled.camIs {k : Camera} (h : Settled (withCam c k u) v) : v.cam c = k := (h.cam c).trans (Vector.getElem_set_self ..)

/-- A further change of the camera that an event changes. -/
theorem Settled.changes {k : Camera} (h : Settled (withCam c k u) v) (f : Camera → Camera) : Settled (withCam c (f k) u) (v.modCam c f) := by
  have hm := h.modCam c f
  rwa [← h.cam c, h.camIs, withCam_withCam] at hm

/-- A result of the camera that an event changes. -/
theorem Settled.records {k : Camera} (h : Settled (withCam c k u) v) (tag : BitVec 8) (kind : BitVec 4) (code : Code) (detail : BitVec 16) :
    Settled
      (withCam c (withResult tag kind code detail k) { u with stat := { u.stat with flags := u.stat.flags ||| resultFlags code } })
      (recordResult c tag kind code detail v) := (h.changes (withResult tag kind code detail)).flag _

/-- The end of the active cue of the camera that an event changes. -/
theorem Settled.ends {k : Camera} {q : Cue} (h : Settled (withCam c k u) v) (ha : k.active = some q) (code : Code) (detail : BitVec 16) :
    Settled (withCam c (cueEnded q code detail k) { u with stat := { u.stat with flags := u.stat.flags ||| resultFlags code } })
      (endActive c code detail v) := by
  rw [endActive_eq (by rw [h.camIs]; exact ha)]
  exact (h.changes (cueEnded q code detail)).flag _

/-- Every state is the one with its own camera. -/
theorem Settled.own (h : Settled u v) : Settled (withCam c (u.cam c) u) v := by rwa [withCam_self]

/-- A camera that is left IDLE takes its next head (R48). -/
theorem Settled.takesHead {k : Camera} (h : Settled (withCam c k u) v) (hi : k.state = .idle) (hg : GotoNext k)
    (hs : v.shot.arrivals = []) :
    Settled { withCam c (headTaken k) u with shot := headAsked c k v.shot } (startRequests (takeHead c v)) := by
  have hcam := h.camIs
  have := takeHead_started h (hcam.symm ▸ hi) (hcam.symm ▸ hg) hs
  rwa [hcam, withCam_withCam] at this

/-- The camera of a post, then IDLE, takes its next head after a result (R48). -/
theorem posted_takesHead {k : Camera} {code : Code} (h : Settled (afterPost s c w k code) v) (hi : k.state = .idle) (hg : GotoNext k)
    (hs : v.shot.arrivals = []) :
    Settled { afterPost s c w (headTaken k) code with shot := headAsked c k v.shot } (startRequests (takeHead c v)) :=
  Settled.takesHead
    (u := hostEnds (addrOf s.base (mailboxOff c 0)) true false w { s with stat := { s.stat with flags := s.stat.flags ||| resultFlags code } })
    h hi hg hs

/-- The camera of a post with no result, then IDLE, takes its next head (R48). -/
theorem quietPost_takesHead {k : Camera} (h : Settled (afterQuietPost s c w k) v) (hi : k.state = .idle) (hg : GotoNext k)
    (hs : v.shot.arrivals = []) :
    Settled { afterQuietPost s c w (headTaken k) with shot := headAsked c k v.shot } (startRequests (takeHead c v)) :=
  Settled.takesHead (u := hostEnds (addrOf s.base (mailboxOff c 0)) true false w s) h hi hg hs

/-! DIRECT, RELEASE and ENABLE -/

theorem Settled.fills (h : Settled u v) (l : List Fill) : Settled u { v with setp := { v.setp with fills := l } } :=
  { h with writeOuts := h.writeOuts }

theorem askFill_eq (c : Cam) (s : State) : ∃ l, askFill c s = { s with setp := { s.setp with fills := l } } := by
  unfold askFill
  split
  · exact ⟨s.setp.fills, rfl⟩
  · exact ⟨_, rfl⟩

theorem askFill_first {x : Axis} (hx : inMask (s.cam c).cfg.mask x = true) (hb : ∀ y : Axis, y < x → inMask (s.cam c).cfg.mask y = false)
    (hf : s.setp.fills = []) : ∃ axes, (askFill c s).setp.fills = [⟨c, x :: axes⟩] := by
  obtain ⟨axes, haxes⟩ := maskAxes_first hx hb
  exact ⟨axes, by rw [askFill, haxes]; simp only [hf, List.nil_append]⟩

theorem Settled.adopting (h : Settled u v) (l : List Cam) : Settled { u with adoptQueue := l } { v with adoptQueue := l } :=
  { h with adoptQueue := rfl }

/-- An accepted DIRECT. -/
def directed (k : Camera) : Camera := { k with state := .direct, direct := some k.setpoints }

theorem cueDirect_accepted (h : (v.cam c).state = .idle) (tag : BitVec 8) :
    cueDirect c tag v = cueDone c tag 9 0 (askFill c (v.modCam c directed)) := by
  simp only [cueDirect, h]
  rfl

/-- The state in which an accepted DIRECT is judged asks for its fill, and the port is granted to its first pair (R140; log 32). -/
theorem direct_fills {x : Axis} (hp : v.port.cur = none) (hr : v.bus.req = none) (hq : v.bus.queue = []) (hf : v.setp.fills = [])
    (hw : ∀ w ∈ v.setp.writeOuts, w.granted = 0) (hx : inMask (v.cam c).cfg.mask x = true)
    (hb : ∀ y : Axis, y < x → inMask (v.cam c).cfg.mask y = false) (tag : BitVec 8) (old : State) :
    (settleWith false old (cueDone c tag 9 0 (askFill c (v.modCam c directed)))).port.cur =
      some ⟨.fill c, addrOf v.base (frameOff c (48 + 2 * x.val)), some (goodWord (lowHalf (v.cam c).setpoints[x])),
        some (goodWord (highHalf (v.cam c).setpoints[x])), true⟩ := by
  have hcam : ((v.modCam c directed).cam c) = directed (v.cam c) := cam_modCam_self ..
  obtain ⟨axes, haxes⟩ := askFill_first (s := v.modCam c directed) (c := c) (x := x) (hcam.symm ▸ hx) (hcam.symm ▸ hb) hf
  obtain ⟨l, hl⟩ := askFill_eq c (v.modCam c directed)
  rw [hl] at haxes ⊢
  set u := cueDone c tag 9 0 { v.modCam c directed with setp := { v.setp with fills := l } } with hu
  obtain ⟨e, m, hset⟩ := settleWith_first (v := u) (.of_empty hq) hp hr old
  have hcamu : u.cam c = withResult tag 9 .done 0 (directed (v.cam c)) := by
    rw [hu, cueDone, recordResult_eq]
    refine (cam_modCam_self (s := State.flag { v.modCam c directed with setp := { v.setp with fills := l } } _) ..).trans ?_
    exact congrArg (withResult tag 9 .done 0) hcam
  have hgrant := grantSetpoint_fill (s := { u with shot := e, stat := m }) (c := c) (x := x) (axes := axes) (rest := []) haxes hw
  refine (congrArg (fun s : State => s.port.cur) hset).trans ?_
  rw [ownGrants_setpoint hgrant, Option.getD_some, grantFill]
  have hcam' : State.cam { u with shot := e, stat := m } c = withResult tag 9 .done 0 (directed (v.cam c)) := hcamu
  rw [hcam']
  rfl

/-- A camera that an accepted RELEASE leaves IDLE where it stands. -/
def stoodDown (k : Camera) : Camera := { k with state := .idle, direct := none }

theorem cueRelease_accepted (h : (v.cam c).state = .direct) (tag : BitVec 8) :
    cueRelease c tag v = takeHead c (cueDone c tag 10 0 (dropFills c (v.modCam c stoodDown))) := by
  simp only [cueRelease, h]
  rfl

/-- A camera that an accepted ENABLE takes into adoption. -/
def adopting (tag : BitVec 8) (k : Camera) : Camera :=
  { k with state := .adopting, stale := false, adoption := some ⟨tag, [], false, false⟩ }

theorem cueEnable_accepted (h : (v.cam c).state = .offline) (tag : BitVec 8) :
    cueEnable c tag v = { v.modCam c (adopting tag) with adoptQueue := v.adoptQueue ++ [c] } := by
  simp only [cueEnable, h]
  rfl

/-- Settles O35: DIRECT with its fill, RELEASE with the next head, ENABLE with its adoption. -/
theorem directReleaseAndEnable : Obligations.DirectReleaseAndEnable := by
  intro s c tag spare par
  refine ⟨fun h hs => ?_, fun h hs hg hquiet => ⟨_, rfl, post_put h, post_started h fun b => ?_⟩,
    fun h hs => ⟨_, rfl, post_put h, post_judged h fun b => ?_⟩⟩
  · have hjudge : ∀ b, judgeCue c tag 9 (posted b s c (commandWord tag spare 9 par)) =
        cueDone c tag 9 0 (askFill c ((posted b s c (commandWord tag spare 9 par)).modCam c directed)) := fun b =>
      (judgeCue_direct ..).trans (cueDirect_accepted (v := posted b s c _) hs tag)
    refine ⟨_, rfl, post_put h, post_judged h fun b => ?_, fun x hf hw hx hb => ?_⟩
    · obtain ⟨l, hl⟩ := askFill_eq c ((posted b s c (commandWord tag spare 9 par)).modCam c directed)
      rw [hjudge, hl]
      exact (posted_result b directed .done 0).fills l
    · obtain ⟨b, hpost⟩ := postKind_judged h
      show (postKind c tag spare 9 par s).port.cur = _
      rw [hpost, hjudge]
      exact direct_fills (v := posted b s c (commandWord tag spare 9 par)) rfl h.completing.req h.completing.queue hf hw hx hb tag s
  · rw [judgeCue_release, cueRelease_accepted (v := posted b s c _) hs]
    exact posted_takesHead ((posted_result b stoodDown .done 0).fills _) rfl hg hquiet.1
  · rw [judgeCue_enable, cueEnable_accepted (v := posted b s c _) hs]
    exact ((posted_settled b s c _).modCam c (adopting tag)).adopting _

end Sys2Proof.Machine

/-! Tries of claims, cues given up, and a RETURN at the head of the queue, as what they leave (R106, R49, R53, R58, R98). -/

namespace Sys2Proof.Machine

variable {s u v t : State} {c : Cam} {q : Cue} {r : Rect} {k : Camera} {e : ShotEngine} {g : Grid Cell}

/-! Cells -/

theorem Settled.cells (h : Settled u v) {f : Fin 32 → Fin 32 → Cell → Cell} (hg : paintCells f v.floor.cells = g) :
    Settled (withCells g u) (v.paint f) := by
  have hp := h.paint f
  have hgu : paintCells f u.floor.cells = g := by rw [← h.floor]; exact hg
  rwa [hgu] at hp

theorem paintCells_ext {f : Fin 32 → Fin 32 → Cell → Cell} {g h : Grid Cell} {p : Fin 32 → Fin 32 → Cell}
    (hp : ∀ x y, f x y (gridAt g x y) = p x y) (hh : h = gridOf p) : paintCells f g = h := by
  have hfun : (fun x y => f x y (gridAt g x y)) = p := funext fun x => funext fun y => hp x y
  rw [hh, paintCells, hfun]

theorem paintCells_heldRect (g : Grid Cell) (c : Cam) (r : Rect) :
    paintCells (fun x y v => if inRect r x y && v == .free then .held c else v) g = cellsTried g c r .granted :=
  paintCells_ext (fun x y => by simp only [Bool.and_eq_true, beq_iff_eq]) rfl

theorem paintCells_freeOutside (f : FloorMap) (c : Cam) (r : Rect) :
    paintCells (fun x y v => if v == .held c && !((some r).any (inRect · x y)) then .free else v) f.cells = cellsGivenBack f c r :=
  paintCells_ext (fun x y => by simp only [Option.any_some, Bool.and_eq_true, beq_iff_eq, Bool.not_eq_true']) rfl

theorem paintCells_freeAll (f : FloorMap) (c : Cam) :
    paintCells (fun x y v => if v == .held c && !((none : Option Rect).any (inRect · x y)) then .free else v) f.cells = cellsLeft f c :=
  paintCells_ext (fun x y => by simp only [Option.any_none, Bool.not_false, Bool.and_true, beq_iff_eq]) rfl

/-- Other cells, where one camera has changed. -/
theorem Settled.recells (h : Settled (withCam c k u) v) {f : Fin 32 → Fin 32 → Cell → Cell} (hg : paintCells f v.floor.cells = g) :
    Settled (withCam c k (withCells g u)) (v.paint f) := h.cells hg

theorem Settled.begins (h : Settled (withCam c k u) v) (ha : k.active = some q) : Settled (withCam c (moveBegun q k) u) (beginMove c v) := by
  rw [beginMove_moveBegun (q := q) (by rw [h.camIs]; exact ha)]
  exact h.changes (moveBegun q)

/-! Tries (R106) -/

theorem anyCell_blocked {f : FloorMap} (h : ∃ x y : Fin 32, inRect r x y = true ∧ gridAt f.cells x y = .blocked) :
    anyCell f r (· == .blocked) = true := by
  obtain ⟨x, y, hr, hb⟩ := h
  exact (anyCell_iff ..).mpr ⟨x, y, hr, by rw [hb]; rfl⟩

theorem anyCell_unblocked {f : FloorMap} (h : ∀ x y : Fin 32, inRect r x y = true → gridAt f.cells x y ≠ .blocked) :
    anyCell f r (· == .blocked) = false := by
  rw [Bool.eq_false_iff, ne_eq, anyCell_iff]
  rintro ⟨x, y, hr, hb⟩
  exact h x y hr (by simpa using hb)

theorem tryClaim_keepOut (hc : (s.cam c).claim = some r) (h : TryGives s.floor.cells c r .keepOut) :
    tryClaim c s = (endActive c .keepOut 0 s, true) := by
  simp only [tryClaim, hc, anyCell_blocked h, if_true]

theorem tryClaim_denied (hc : (s.cam c).claim = some r) (h : TryGives s.floor.cells c r .denied) : tryClaim c s = (s, false) := by
  obtain ⟨hfree, x, y, d, hd, hr, hheld⟩ := h
  have hother : anyCell s.floor r (fun v => v != .free && v != .held c) = true :=
    (anyCell_iff ..).mpr ⟨x, y, hr, by simp [hheld, hd]⟩
  simp only [tryClaim, hc, anyCell_unblocked hfree, hother, if_true, if_false, Bool.false_eq_true]

theorem tryClaim_granted (hc : (s.cam c).claim = some r) (h : TryGives s.floor.cells c r .granted) :
    tryClaim c s = (beginMove c ((s.holdRect c r).modCam c fun k => { k with held := some r, waitFloor := false }), false) := by
  have hfree : anyCell s.floor r (· == .blocked) = false :=
    anyCell_unblocked fun x y hr hb => by rcases h x y hr with h | h <;> rw [h] at hb <;> cases hb
  have hother : anyCell s.floor r (fun v => v != .free && v != .held c) = false := by
    rw [Bool.eq_false_iff, ne_eq, anyCell_iff]
    rintro ⟨x, y, hr, hb⟩
    rcases h x y hr with h | h <;> simp [h] at hb
  simp only [tryClaim, hc, hfree, hother, if_false, Bool.false_eq_true]

/-- A granted try: the camera holds its claim and its move has begun (R106, R54). -/
theorem granted_settled (h : Settled (withCam c k u) v) (ha : k.active = some q) (hg : v.floor.cells = g) :
    Settled (withCam c { moveBegun q k with held := some r } (withCells (cellsTried g c r .granted) u))
      (beginMove c ((v.holdRect c r).modCam c fun k => { k with held := some r, waitFloor := false })) := by
  have hcells : Settled (withCam c k (withCells (cellsTried g c r .granted) u)) (v.holdRect c r) :=
    h.recells (by rw [hg]; exact paintCells_heldRect ..)
  generalize v.holdRect c r = p at hcells
  exact (hcells.changes fun k => { k with held := some r, waitFloor := false }).begins ha

/-! Requests cancelled (R88) -/

theorem shotWithout_free (p : ShotReq → Bool) (h : e.op = none) : shotWithout p e = { e with fifo := e.fifo.filter (!p ·) } := by
  rw [shotWithout, h]; rfl

theorem shotWithout_spared {p : ShotReq → Bool} {op : ShotOp} (h : e.op = some op) (hp : p op.req = false) :
    shotWithout p e = { e with fifo := e.fifo.filter (!p ·) } := by
  rw [shotWithout, h, Option.filter_some, hp]; rfl

theorem shotWithout_discarded {p : ShotReq → Bool} {op : ShotOp} (h : e.op = some op) (hp : p op.req = true) :
    shotWithout p e = { e with fifo := e.fifo.filter (!p ·), op := none } := by
  rw [shotWithout, h, Option.filter_some, hp]; rfl

theorem cancelWork_shot (p : ShotReq → Bool) (h : s.shot.arrivals = []) :
    ∃ q, cancelWork p s = { s with port := q, shot := shotWithout p s.shot } ∧ q.timeout = s.port.timeout := by
  have hfifo : (s.modShot fun e => { e with fifo := e.fifo.filter (!p ·), arrivals := e.arrivals.filter (!p ·) }) =
      { s with shot := { s.shot with fifo := s.shot.fifo.filter (!p ·) } } := by
    simp only [State.modShot, h, List.filter_nil]
  rw [cancelWork, hfifo]
  dsimp only
  split
  · next op hop =>
    cases hp : p op.req with
    | false => exact ⟨s.port, by rw [shotWithout_spared hop hp]; rfl, rfl⟩
    | true =>
      obtain ⟨q, hq, htimeout, -⟩ := orphanPort_cases shotOwner
        (State.modShot { s with shot := { s.shot with fifo := s.shot.fifo.filter (!p ·) } } fun e => { e with op := none })
      exact ⟨q, by rw [if_pos rfl, hq, shotWithout_discarded hop hp]; rfl, htimeout⟩
  · next hop => exact ⟨s.port, by rw [shotWithout_free p hop], rfl⟩

/-! A cue given up (R49, R53, R58) -/

/-- The active cue of a FETCHING, WAITING or HALTED camera ends ABANDONED where it stands. -/
def giveUp (c : Cam) (s : State) : State :=
  if (s.cam c).state = .halted then abandonCue c s
  else if (s.cam c).state = .fetching then endActive c .abandoned 0 (cancelWork (fetchOf c) s)
  else endActive c .abandoned 0 s

theorem cutActive_giveUp (h : (s.cam c).state = .fetching ∨ (s.cam c).state = .waiting ∨ (s.cam c).state = .halted) :
    cutActive c s = takeHead c (giveUp c s) := by
  rcases h with h | h | h <;> simp only [cutActive, giveUp, h, abandonMove, reduceCtorEq, if_true, if_false]

theorem cueAbandon_giveUp (h : (s.cam c).state = .fetching ∨ (s.cam c).state = .waiting ∨ (s.cam c).state = .halted) (tag : BitVec 8) :
    cueAbandon c tag s = takeHead c (cueDone c tag 5 0 (giveUp c s)) := by
  rcases h with h | h | h <;> simp only [cueAbandon, giveUp, h, reduceCtorEq, if_true, if_false]

theorem CueGivenUp.state (h : CueGivenUp s c q k e g) :
    (s.cam c).state = .fetching ∨ (s.cam c).state = .waiting ∨ (s.cam c).state = .halted := by
  cases h with
  | fetching h => exact .inl h
  | waiting h => exact .inr (.inl h)
  | halted h => exact .inr (.inr h)
  | parked r h => exact .inr (.inr h)

theorem noneWaits_modCam (h : NoneWaits c s) {f : Camera → Camera} (hf : inWaitingSet (f (s.cam c)) = false) (d : Cam) :
    inWaitingSet ((s.modCam c f).cam d) = false := by
  by_cases hd : d = c
  · subst hd; rw [cam_modCam_self]; exact hf
  · rw [cam_modCam_other hd]; exact h d hd

/-- An IDLE ROAMING camera gives floor back, no camera waiting for it (R110). -/
theorem giveBack_roaming (hroam : (v.cam c).cfg.kind = some .roaming) (hidle : (v.cam c).state = .idle) (hnone : NoneWaits c v) (x y : Int) :
    giveBack c x y v =
      (v.freeOutside c (some (parkedRect v.floor (v.cam c).cfg.margin x y))).modCam c fun k =>
        { k with held := some (parkedRect v.floor (v.cam c).cfg.margin x y) } := by
  have hcam : ∀ d, (v.freeOutside c (some (parkedRect v.floor (v.cam c).cfg.margin x y))).cam d = v.cam d := fun _ => State.freeOutside_cam ..
  have hroams : isRoaming (v.cam c) = true := by rw [isRoaming, hroam]; rfl
  rw [giveBack, if_pos hroams]
  dsimp only
  generalize v.freeOutside c (some (parkedRect v.floor (v.cam c).cfg.margin x y)) = p at hcam
  refine releaseExam_of_none (noneWaits_modCam (fun d hd => ?_) ?_)
  · rw [hcam]; exact hnone d hd
  · rw [hcam]; simp [inWaitingSet, hidle]

theorem parked_settled (h : Settled (withCam c k u) v) (f : FloorMap) (hf : f.cells = v.floor.cells) :
    Settled (withCam c { k with held := some r } (withCells (cellsGivenBack f c r) u))
      ((v.freeOutside c (some r)).modCam c fun k => { k with held := some r }) := by
  have hcells : Settled (withCam c k (withCells (cellsGivenBack f c r) u)) (v.freeOutside c (some r)) :=
    h.recells (by rw [← hf]; exact paintCells_freeOutside ..)
  generalize v.freeOutside c (some r) = p at hcells
  exact hcells.changes fun k => { k with held := some r }

theorem endActive_shot (c : Cam) (code : Code) (detail : BitVec 16) (s : State) : (endActive c code detail s).shot = s.shot := by
  unfold endActive
  dsimp only
  split <;> rfl

/-- The marks cleared after a cue given up. -/
def unmarked (k : Camera) : Camera := { k with halt := false, abandon := false }

theorem giveUp_halted (ha : (v.cam c).active = some q) (h : (v.cam c).state = .halted) :
    giveUp c v =
      giveBack c (v.cam c).setpoints[floorX] (v.cam c).setpoints[floorY]
        ((v.modCam c fun k => unmarked (cueEnded q .abandoned 0 k)).flag (resultFlags .abandoned)) := by
  rw [giveUp, if_pos h, abandonCue, endActive_eq ha]
  exact congrArg
    (fun s : State => giveBack c (v.cam c).setpoints[floorX] (v.cam c).setpoints[floorY] (s.flag (resultFlags .abandoned)))
    (State.modCam_modCam c (cueEnded q .abandoned 0) unmarked v)

/-- What a cue given up leaves (R49, R53, R58). -/
theorem giveUp_settled {k₀ : Camera} (h : Settled (withCam c k₀ u) v) (ha : k₀.active = some q) (harr : v.shot.arrivals = [])
    (hg : CueGivenUp v c q k e g) :
    (giveUp c v).shot = e ∧ Settled
      (withCam c k { withCells g u with shot := e, stat := { u.stat with flags := u.stat.flags ||| resultFlags .abandoned } })
      (giveUp c v) := by
  have hcam₀ : v.cam c = k₀ := h.camIs
  have ha' : (v.cam c).active = some q := hcam₀ ▸ ha
  have hshot : ∀ {k x y}, Settled (withCam c k x) y → y.shot = e → Settled (withCam c k { x with shot := e }) y :=
    fun hx hy => { hx with shot := fun _ => hy }
  have hsame : withCells v.floor.cells u = u := by rw [h.floor]; rfl
  set f : Camera → Camera := fun k => unmarked (cueEnded q .abandoned 0 k) with hf
  set v₁ := (v.modCam c f).flag (resultFlags .abandoned) with hv₁
  have hend : Settled (withCam c (f k₀) { u with stat := { u.stat with flags := u.stat.flags ||| resultFlags .abandoned } }) v₁ :=
    (h.changes f).flag _
  have hcam : v₁.cam c = f (v.cam c) := cam_modCam_self c f v
  cases hg with
  | fetching hs =>
    obtain ⟨p, hp, ht⟩ := cancelWork_shot (fetchOf c) harr
    have hcancel : Settled (withCam c k₀ { u with shot := shotWithout (fetchOf c) v.shot }) (cancelWork (fetchOf c) v) := by
      rw [hp]; exact h.reshoot _ ht
    rw [giveUp, if_neg (by rw [hs]; nofun), if_pos hs, hsame, hcam₀]
    exact ⟨(endActive_shot ..).trans (by rw [hp]), hcancel.ends ha .abandoned 0⟩
  | waiting hs =>
    rw [giveUp, if_neg (by rw [hs]; nofun), if_neg (by rw [hs]; nofun), hsame, hcam₀]
    exact ⟨endActive_shot .., hshot (h.ends ha .abandoned 0) (endActive_shot ..)⟩
  | halted hs hfixed =>
    have hx : giveUp c v = v₁ := by
      rw [giveUp_halted ha' hs]
      refine giveBack_of_fixed ?_ _ _
      rw [isRoaming, beq_eq_false_iff_ne]
      exact fun hr => hfixed ((congrArg (fun k : Camera => k.cfg.kind) hcam).symm.trans hr)
    rw [hx, hsame, hcam₀]
    exact ⟨rfl, hshot hend rfl⟩
  | parked r hs hroam hnone hr =>
    have hrect : parkedRect v₁.floor (v₁.cam c).cfg.margin (v.cam c).setpoints[floorX] (v.cam c).setpoints[floorY] = r := by
      rw [hcam, hr]; rfl
    have hother : NoneWaits c v₁ := fun d hd => by
      have : v₁.cam d = v.cam d := cam_modCam_other hd f v
      rw [this]
      exact hnone d hd
    have hx : giveUp c v = (v₁.freeOutside c (some r)).modCam c fun k => { k with held := some r } := by
      rw [giveUp_halted ha' hs]
      exact (giveBack_roaming ((congrArg (fun k : Camera => k.cfg.kind) hcam).trans hroam) (congrArg Camera.state hcam) hother _ _).trans
        (by rw [hrect])
    have hset := parked_settled (r := r) hend v.floor rfl
    have hshot' : ((v₁.freeOutside c (some r)).modCam c fun k => { k with held := some r }).shot = v.shot :=
      State.freeOutside_shot (s := v₁) c (some r)
    rw [hx, hcam₀]
    generalize (v₁.freeOutside c (some r)).modCam c (fun k => { k with held := some r }) = p at hset hshot' ⊢
    exact ⟨hshot', hshot hset hshot'⟩

end Sys2Proof.Machine

/-! Move cues that are posted: taken at once, queued, cut in, given up, and tried (R48, R71 to R78, R98). -/

namespace Sys2Proof.Machine

variable {s u v t : State} {c : Cam} {w : MWord} {a : Addr} {n : Nat} {tag : BitVec 8} {spare kind : BitVec 4} {par : BitVec 2} {m : MoveKind}
  {p q : Cue} {k : Camera} {e : ShotEngine} {g : Grid Cell}

/-! The queue -/

theorem cutsIn_iff (m : MoveKind) (tag : BitVec 8) (k : Camera) : cutsIn k (postedCue m tag k) = true ↔ CutsIn k := by
  simp only [cutsIn, CutsIn, Bool.and_eq_true, Option.any_eq_true, decide_eq_true_eq]
  exact Iff.rfl

theorem joinQueue_tail (h : ¬CutsIn (v.cam c)) (m : MoveKind) (tag : BitVec 8) :
    joinQueue c (postedCue m tag (v.cam c)) v =
      takeHead c (v.modCam c fun k => { k with queue := k.queue ++ [postedCue m tag (v.cam c)] }) :=
  if_neg (mt (cutsIn_iff m tag _).mp h)

theorem joinQueue_cuts (h : CutsIn (v.cam c)) (m : MoveKind) (tag : BitVec 8) :
    joinQueue c (postedCue m tag (v.cam c)) v = cutActive c (v.modCam c fun k => { k with queue := postedCue m tag (v.cam c) :: k.queue }) :=
  if_pos ((cutsIn_iff m tag _).mpr h)

theorem cueGoto_accepted (hs : (v.cam c).state ≠ .offline) (ha : (v.cam c).latches[0].value.toNat ≤ 63) (hq : (v.cam c).queue.length < 4)
    (tag : BitVec 8) : cueGoto c tag v = joinQueue c (postedCue .goto tag (v.cam c)) v := by
  have ha' : ¬63 < (v.cam c).latches[0].value.toNat := by omega
  have hq' : ¬4 ≤ (v.cam c).queue.length := by omega
  rw [cueGoto, if_neg hs, if_neg ha', if_neg hq']
  rfl

theorem cueReturn_accepted (hs : (v.cam c).state ≠ .offline) (hq : (v.cam c).queue.length < 4) (tag : BitVec 8) :
    cueReturn c tag v = joinQueue c (postedCue .ret tag (v.cam c)) v := by
  have hq' : ¬4 ≤ (v.cam c).queue.length := by omega
  rw [cueReturn, if_neg hs, if_neg hq']
  rfl

/-! A RETURN at the head of the queue (R98) -/

/-- The camera that has taken the head of its queue as its active cue. -/
def headActive (q : Cue) (rest : List Cue) (k : Camera) : Camera := { k with queue := rest, active := some q }

theorem takeHead_return_empty {rest : List Cue} (hi : (s.cam c).state = .idle) (hq : (s.cam c).queue = q :: rest) (hk : q.kind = .ret)
    (hst : (s.cam c).stack = []) : takeHead c s = takeHead c (endActive c .stackEmpty 0 (s.modCam c (headActive q rest))) := by
  have hqueue : ((endActive c .stackEmpty 0 (s.modCam c (headActive q rest))).cam c).queue = rest := by
    rw [endActive_queue, cam_modCam_self]; rfl
  rw [takeHead, hq, List.length_cons, takeHeadN]
  simp only [hi, hq, hk, hst]
  rw [takeHead, hqueue]
  rfl

theorem takeHead_return_planned {top : Positions} {below : List Positions} (hi : (s.cam c).state = .idle) (hq : (s.cam c).queue = [q])
    (hk : q.kind = .ret) (hst : (s.cam c).stack = top :: below) :
    takeHead c s = (planActive c (returnRequest (s.cam c) q top) (s.modCam c (headActive q []))).1 := by
  rw [takeHead, hq, List.length_singleton, takeHeadN]
  simp only [hi, hq, hk, hst, takeHeadN, ite_self]
  rfl

/-! Flags of results -/

theorem resultFlags_both {a b : Code} {k : BitVec 12} (h : resultFlags a ||| resultFlags b = k) (f : BitVec 12) :
    f ||| resultFlags a ||| resultFlags b = f ||| k := by rw [BitVec.or_assoc, h]

/-! Posts -/

theorem posted_own (b : Bool) (s : State) (c : Cam) (w : MWord) :
    Settled (withCam c (s.cam c) (hostEnds (addrOf s.base (mailboxOff c 0)) true false w s)) (posted b s c w) := (posted_settled b s c w).own

/-- A move cue that has joined the queue of the camera it was posted to. -/
theorem posted_joined (b : Bool) (s : State) (c : Cam) (w : MWord) (l : List Cue) :
    Settled (withCam c { s.cam c with queue := l } (hostEnds (addrOf s.base (mailboxOff c 0)) true false w s))
      ((posted b s c w).modCam c fun k => { k with queue := l }) := (posted_own b s c w).changes fun k => { k with queue := l }

theorem emptyCut (h : (s.cam c).active = none) : ¬CutsIn (s.cam c) := fun ⟨_, q, hq, _⟩ => by rw [h] at hq; cases hq

/-- The posted cue joins an empty queue. -/
theorem posted_joins_empty (b : Bool) (hq : (s.cam c).queue = []) (p : Cue) :
    ((posted b s c w).modCam c fun k => { k with queue := k.queue ++ [p] }) = (posted b s c w).modCam c fun k => { k with queue := [p] } :=
  modCam_congr (by rw [posted_cam, hq]; rfl)

/-- Settles O25: the posted cue is the head that an IDLE camera takes at once. -/
theorem moveCueIsTaken : Obligations.MoveCueIsTaken := by
  refine ⟨fun s c tag spare par h hs hq ha harg hquiet => ⟨_, rfl, post_put h, post_started h fun b => ?_⟩,
    fun s c tag spare par h hs hq ha hst => ⟨_, rfl, post_put h, post_judged h fun b => ?_⟩⟩
  all_goals
    have hlen : (s.cam c).queue.length < 4 := by rw [hq]; decide
    have hoff : (s.cam c).state ≠ .offline := by rw [hs]; nofun
  · rw [judgeCue_goto, cueGoto_accepted (v := posted b s c _) hoff harg hlen, joinQueue_tail (v := posted b s c _) (emptyCut ha), posted_cam,
      posted_joins_empty b hq]
    set p := postedCue .goto tag (s.cam c) with hp
    have htaken := quietPost_takesHead (posted_joined b s c (commandWord tag spare 1 par) [p]) hs (GotoNext.of_head rfl rfl) hquiet.1
    have hhead : headTaken { s.cam c with queue := [p] } = { s.cam c with state := .fetching, active := some p } :=
      (headTaken_of_head rfl).trans (by rw [← hq])
    have hasked : headAsked c { s.cam c with queue := [p] } s.shot =
        shotStarted (s.shot.fifo ++ [⟨c, (s.cam c).latches[0].value.toNat, tag, .fetch⟩]) s.shot.op := rfl
    rw [hhead] at htaken
    rw [← shotStarted_joined hquiet, ← hasked]
    exact htaken
  · rw [judgeCue_return, cueReturn_accepted (v := posted b s c _) hoff hlen, joinQueue_tail (v := posted b s c _) (emptyCut ha), posted_cam,
      posted_joins_empty b hq]
    set p := postedCue .ret tag (s.cam c) with hp
    have hjoin := posted_joined b s c (commandWord tag spare 2 par) [p]
    have hend := (hjoin.changes (headActive p [])).ends rfl .stackEmpty 0
    have hempty : ((endActive c .stackEmpty 0 (((posted b s c (commandWord tag spare 2 par)).modCam c fun k =>
        { k with queue := [p] }).modCam c (headActive p []))).cam c).queue = [] := by rw [hend.camIs]; rfl
    have hback : cueEnded p .stackEmpty 0 (headActive p [] { s.cam c with queue := [p] }) = cueEnded p .stackEmpty 0 (s.cam c) := by
      show { cueEnded p .stackEmpty 0 (s.cam c) with queue := [] } = _
      rw [← hq]
      rfl
    rw [takeHead_return_empty (by rw [hjoin.camIs]; exact hs) (by rw [hjoin.camIs]) rfl (by rw [hjoin.camIs]; exact hst),
      takeHead_of_empty hempty]
    rw [hback] at hend
    exact hend

end Sys2Proof.Machine

/-! Move cues that join the queue or cut in, ABANDON, and the try that a RESUME leads to (R71 to R78, R106). -/

namespace Sys2Proof.Machine

variable {s u v t : State} {c : Cam} {w : MWord} {a : Addr} {n : Nat} {tag : BitVec 8} {spare kind : BitVec 4} {par : BitVec 2} {m : MoveKind}
  {p q : Cue} {k : Camera} {e : ShotEngine} {g : Grid Cell}

/-! A cue given up, seen after the post -/

theorem CueGivenUp.idle (h : CueGivenUp s c q k e g) : k.state = .idle := by cases h <;> rfl

theorem CueGivenUp.sameQueue (h : CueGivenUp s c q k e g) : k.queue = (s.cam c).queue := by cases h <;> rfl

theorem CueGivenUp.sameStack (h : CueGivenUp s c q k e g) : k.stack = (s.cam c).stack := by cases h <;> rfl

theorem CueGivenUp.arrivals (h : CueGivenUp s c q k e g) : e.arrivals = s.shot.arrivals := by cases h <;> rfl

/-- The queue plays no part in what a cue given up leaves. -/
theorem CueGivenUp.requeue (h : CueGivenUp s c q k e g) {l : List Cue} (hcam : v.cam c = { s.cam c with queue := l })
    (hother : ∀ d, d ≠ c → v.cam d = s.cam d) (hfloor : v.floor = s.floor) (hshot : v.shot = s.shot) :
    CueGivenUp v c q { k with queue := l } e g := by
  have hstate : (v.cam c).state = (s.cam c).state := by rw [hcam]
  have hkind : (v.cam c).cfg.kind = (s.cam c).cfg.kind := by rw [hcam]
  cases h with
  | fetching hs =>
    have hv := CueGivenUp.fetching (q := q) (hstate.trans hs)
    rw [hcam, hshot, hfloor] at hv
    exact hv
  | waiting hs =>
    have hv := CueGivenUp.waiting (q := q) (hstate.trans hs)
    rw [hcam, hshot, hfloor] at hv
    exact hv
  | halted hs hfixed =>
    have hv := CueGivenUp.halted (q := q) (hstate.trans hs) (hkind ▸ hfixed)
    rw [hcam, hshot, hfloor] at hv
    exact hv
  | parked r hs hroam hnone hr =>
    have hv := CueGivenUp.parked (q := q) r (hstate.trans hs) (hkind.trans hroam) (fun d hd => by rw [hother d hd]; exact hnone d hd)
      (by rw [hcam, hfloor]; exact hr)
    rw [hcam, hshot, hfloor] at hv
    exact hv

/-- The cue given up of a camera whose queue a post has changed. -/
theorem posted_givesUp (b : Bool) (ha : (s.cam c).active = some q) (harr : s.shot.arrivals = []) (hg : CueGivenUp s c q k e g) (l : List Cue) :
    (giveUp c ((posted b s c w).modCam c fun k => { k with queue := l })).shot = e ∧
      Settled
        (withCam c { k with queue := l }
          { withCells g (hostEnds (addrOf s.base (mailboxOff c 0)) true false w s) with
            shot := e, stat := { s.stat with flags := s.stat.flags ||| resultFlags .abandoned } })
        (giveUp c ((posted b s c w).modCam c fun k => { k with queue := l })) :=
  giveUp_settled (posted_joined b s c w l) ha harr
    (hg.requeue (cam_modCam_self ..) (fun _ hd => cam_modCam_other hd _ (posted b s c w)) rfl rfl)

/-! Refusals of a move cue (R71) -/

theorem cueGoto_badArg (hs : (v.cam c).state ≠ .offline) (ha : 63 < (v.cam c).latches[0].value.toNat) (tag : BitVec 8) :
    cueGoto c tag v = recordResult c tag 1 .badArg (v.cam c).latches[0].value v := by rw [cueGoto, if_neg hs, if_pos ha]

theorem cueGoto_full (hs : (v.cam c).state ≠ .offline) (ha : (v.cam c).latches[0].value.toNat ≤ 63) (hq : (v.cam c).queue.length = 4)
    (tag : BitVec 8) : cueGoto c tag v = recordResult c tag 1 .queueFull 0 v := by
  have ha' : ¬63 < (v.cam c).latches[0].value.toNat := by omega
  rw [cueGoto, if_neg hs, if_neg ha', if_pos (by omega)]

theorem cueReturn_full (hs : (v.cam c).state ≠ .offline) (hq : (v.cam c).queue.length = 4) (tag : BitVec 8) :
    cueReturn c tag v = recordResult c tag 2 .queueFull 0 v := by rw [cueReturn, if_neg hs, if_pos (by omega)]

/-- A move cue that passes the checks joins the queue (R71). -/
theorem judgeCue_joins (hk : kind = 1 ∧ m = .goto ∧ (v.cam c).latches[0].value.toNat ≤ 63 ∨ kind = 2 ∧ m = .ret)
    (hs : (v.cam c).state ≠ .offline) (hq : (v.cam c).queue.length < 4) (tag : BitVec 8) :
    judgeCue c tag kind v = joinQueue c (postedCue m tag (v.cam c)) v := by
  rcases hk with ⟨rfl, rfl, ha⟩ | ⟨rfl, rfl⟩
  · rw [judgeCue_goto, cueGoto_accepted hs ha hq]
  · rw [judgeCue_return, cueReturn_accepted hs hq]

theorem cutActive_begun (h : (s.cam c).state = .moving ∨ (s.cam c).state = .halting) : cutActive c s = s.modCam c markAbandon := by
  rcases h with h | h <;> simp only [cutActive, h]

theorem joinQueue_last (h : ¬CutsIn (s.cam c)) (b : Bool) (m : MoveKind) (tag : BitVec 8) :
    joinQueue c (postedCue m tag (s.cam c)) (posted b s c w) =
      takeHead c ((posted b s c w).modCam c fun k => { k with queue := k.queue ++ [postedCue m tag (s.cam c)] }) :=
  joinQueue_tail (v := posted b s c w) h m tag

theorem joinQueue_cut (h : CutsIn (s.cam c)) (b : Bool) (m : MoveKind) (tag : BitVec 8) :
    joinQueue c (postedCue m tag (s.cam c)) (posted b s c w) =
      cutActive c ((posted b s c w).modCam c fun k => { k with queue := postedCue m tag (s.cam c) :: (s.cam c).queue }) :=
  (joinQueue_cuts (v := posted b s c w) h m tag).trans (congrArg (cutActive c) (modCam_congr rfl))

/-- Settles O24: the checks of R71, the queue's two ends, and what a cut-in takes by the camera's state. -/
theorem moveCueIsJudgedAndQueued : Obligations.MoveCueIsJudgedAndQueued := by
  refine ⟨fun s c tag spare par hs => ⟨fun h ha => ⟨_, rfl, post_put h, post_judged h fun b => ?_⟩,
    fun h ha hq => ⟨_, rfl, post_put h, post_judged h fun b => ?_⟩, fun h hq => ⟨_, rfl, post_put h, post_judged h fun b => ?_⟩⟩,
    fun s c tag spare kind par m w p hk hw hp h hoff hidle hq => ⟨_, exec_postOf kind c tag spare par s, ?_⟩⟩
  · rw [judgeCue_goto, cueGoto_badArg (v := posted b s c _) hs ha]
    exact posted_recorded b .badArg _
  · rw [judgeCue_goto, cueGoto_full (v := posted b s c _) hs ha hq]
    exact posted_recorded b .queueFull 0
  · rw [judgeCue_return, cueReturn_full (v := posted b s c _) hs hq]
    exact posted_recorded b .queueFull 0
  · subst hw
    have hjudge : ∀ b, judgeCue c tag kind (posted b s c (commandWord tag spare kind par)) =
        joinQueue c p (posted b s c (commandWord tag spare kind par)) := fun b =>
      hp.symm ▸ judgeCue_joins (v := posted b s c (commandWord tag spare kind par)) hk hoff hq tag
    refine ⟨post_put h, fun hcut => post_judged h fun b => ?_, fun hcut hst => post_judged h fun b => ?_,
      fun q k e g hcut ha hquiet hgive => ⟨fun hm => post_started h fun b => ?_, fun hm hstack hgoto => post_started h fun b => ?_⟩⟩
    all_goals rw [hjudge, hp]
    · rw [joinQueue_last hcut, takeHead_of_busy (by rw [cam_modCam_self]; exact hidle)]
      exact (posted_own b s c _).changes fun k => { k with queue := k.queue ++ [postedCue m tag (s.cam c)] }
    · rw [joinQueue_cut hcut, cutActive_begun (by rw [cam_modCam_self]; exact hst)]
      exact (posted_joined b s c (commandWord tag spare kind par) _).changes markAbandon
    all_goals
      rw [joinQueue_cut hcut, cutActive_giveUp (by rw [cam_modCam_self]; exact hgive.state)]
      obtain ⟨hshot, hset⟩ := posted_givesUp (w := commandWord tag spare kind par) b ha hquiet.1 hgive (p :: (s.cam c).queue)
      rw [← hp]
      set v := giveUp c ((posted b s c (commandWord tag spare kind par)).modCam c fun k => { k with queue := p :: (s.cam c).queue }) with hv
    · have hhead := hset.takesHead hgive.idle (GotoNext.of_head rfl (by rw [hp]; exact hm)) (by rw [hshot, hgive.arrivals]; exact hquiet.1)
      rw [hshot] at hhead
      rw [hgive.sameQueue]
      exact hhead
    · have hret : p.kind = .ret := by rw [hp]; exact hm
      have hempty : (v.cam c).stack = [] := by rw [hset.camIs]; exact hgive.sameStack.trans hstack
      have hend := (hset.changes (headActive p (s.cam c).queue)).ends rfl .stackEmpty 0
      have hback : cueEnded p .stackEmpty 0 (headActive p (s.cam c).queue { k with queue := p :: (s.cam c).queue }) =
          cueEnded p .stackEmpty 0 k := by
        show { cueEnded p .stackEmpty 0 k with queue := (s.cam c).queue } = _
        rw [← hgive.sameQueue]
        rfl
      have hx : (endActive c .stackEmpty 0 (v.modCam c (headActive p (s.cam c).queue))).shot = e := (endActive_shot ..).trans hshot
      rw [takeHead_return_empty (by rw [hset.camIs]; exact hgive.idle) (by rw [hset.camIs]) hret hempty]
      rw [hback] at hend
      have hhead := hend.takesHead rfl (by rw [GotoNext]; show ∀ q ∈ k.queue.head?, _; rw [hgive.sameQueue]; exact hgoto)
        (by rw [hx, hgive.arrivals]; exact hquiet.1)
      rw [hx] at hhead
      exact { hhead with flags := hhead.flags.trans (resultFlags_both (by decide) s.stat.flags) }

/-! ABANDON -/

theorem CueGivenUp.posted (h : CueGivenUp s c q k e g) (b : Bool) (w : MWord) : CueGivenUp (posted b s c w) c q k e g := by
  cases h with
  | fetching hs => exact .fetching (s := Machine.posted b s c w) hs
  | waiting hs => exact .waiting (s := Machine.posted b s c w) hs
  | halted hs hfixed => exact .halted (s := Machine.posted b s c w) hs hfixed
  | parked r hs hroam hnone hr => exact .parked (s := Machine.posted b s c w) r hs hroam hnone hr

theorem cueAbandon_begun (h : (v.cam c).state = .moving ∨ (v.cam c).state = .halting) (tag : BitVec 8) :
    cueAbandon c tag v = cueDone c tag 5 0 (v.modCam c markAbandon) := by
  rcases h with h | h <;> simp only [cueAbandon, h]

/-- Settles O31: a move is slowed; any other active cue is given up, and the head follows the ABANDON's DONE. -/
theorem abandonGivesUpTheCue : Obligations.AbandonGivesUpTheCue := by
  rintro s c tag spare par w rfl h hactive
  refine ⟨_, rfl, post_put h, fun hst => post_judged h fun b => ?_, fun q k e g ha hgoto hquiet hgive => post_started h fun b => ?_⟩
  · rw [judgeCue_abandon, cueAbandon_begun (v := posted b s c _) hst]
    exact posted_result b markAbandon .done 0
  · obtain ⟨hshot, hset⟩ := giveUp_settled (posted_own b s c (commandWord tag spare 5 par)) ha hquiet.1 (hgive.posted b _)
    rw [judgeCue_abandon, cueAbandon_giveUp (s := posted b s c _) hgive.state]
    have hx : (cueDone c tag 5 0 (giveUp c (posted b s c (commandWord tag spare 5 par)))).shot = e := hshot
    have hhead := (hset.records tag 5 .done 0).takesHead hgive.idle (by rw [GotoNext]; show ∀ q ∈ k.queue.head?, _; rw [hgive.sameQueue]; exact hgoto)
      (by rw [show (recordResult c tag 5 .done 0 (giveUp c (posted b s c (commandWord tag spare 5 par)))).shot = e from hshot,
            hgive.arrivals]; exact hquiet.1)
    rw [show (recordResult c tag 5 .done 0 (giveUp c (posted b s c (commandWord tag spare 5 par)))).shot = e from hshot] at hhead
    exact { hhead with flags := hhead.flags.trans (resultFlags_both (by decide) s.stat.flags) }

/-! The try that a RESUME leads to -/

theorem acceptResume_tries (hw : (v.cam c).state = .waiting) (hs : (v.cam c).waitStop = true) (ht : (v.cam c).waitTally = false)
    (hf : (v.cam c).waitFloor = true) (tag : BitVec 8) :
    acceptResume c tag v =
      nextHead c (cueDone c tag 4 0 (tryClaim c (v.modCam c unstopped)).1, (tryClaim c (v.modCam c unstopped)).2) := by
  have htry : reasonsChanged c (v.modCam c unstopped) = tryClaim c (v.modCam c unstopped) := by
    refine reasonsChanged_tries ?_ ?_ ?_ ?_ <;> rw [cam_modCam_self]
    · exact hw
    · rfl
    · exact ht
    · exact hf
  rw [acceptResume_waiting hw, if_pos hs, htry]

/-- Settles O30: the RESUME clears STOP, tries the claim, and records its DONE. -/
theorem resumeTriesTheClaim : Obligations.ResumeTriesTheClaim := by
  rintro s c tag spare par w r q rfl h hline hw hs ht hf hc ha
  have hjudge : ∀ b, judgeCue c tag 4 (posted b s c (commandWord tag spare 4 par)) = nextHead c
      (cueDone c tag 4 0 (tryClaim c ((posted b s c (commandWord tag spare 4 par)).modCam c unstopped)).1,
        (tryClaim c ((posted b s c (commandWord tag spare 4 par)).modCam c unstopped)).2) := fun b => by
    have hn : ¬((s.cam c).state = .halting ∧ (s.cam c).abandon = true) := fun hn => by rw [hw] at hn; cases hn.1
    rw [judgeCue_resume, cueResume_accepted (v := posted b s c _) (by rw [posted_cam, hw]; rfl) hn hline]
    exact acceptResume_tries (v := posted b s c _) hw hs ht hf tag
  have hclaim : ∀ b, (((posted b s c (commandWord tag spare 4 par)).modCam c unstopped).cam c).claim = some r := fun b => by
    rw [cam_modCam_self]; exact hc
  have hset := fun b => (posted_own b s c (commandWord tag spare 4 par)).changes unstopped
  refine ⟨_, rfl, post_put h, fun htry hgoto hquiet => post_started h fun b => ?_, fun htry => post_judged h fun b => ?_,
    fun htry => post_judged h fun b => ?_⟩ <;> rw [hjudge]
  · rw [tryClaim_keepOut (hclaim b) htry]
    have hend := ((hset b).ends (q := q) ha .keepOut 0).records tag 4 .done 0
    have hshot : (cueDone c tag 4 0 (endActive c .keepOut 0 ((posted b s c (commandWord tag spare 4 par)).modCam c unstopped))).shot = s.shot :=
      endActive_shot ..
    have hhead := hend.takesHead rfl hgoto ((congrArg ShotEngine.arrivals hshot).trans hquiet.1)
    rw [show (recordResult c tag 4 .done 0 (endActive c .keepOut 0 ((posted b s c (commandWord tag spare 4 par)).modCam c unstopped))).shot =
      s.shot from hshot] at hhead
    exact { hhead with flags := hhead.flags.trans (resultFlags_both (by decide) s.stat.flags) }
  · rw [tryClaim_denied (hclaim b) htry]
    exact (hset b).records tag 4 .done 0
  · rw [tryClaim_granted (hclaim b) htry]
    have hgrant := granted_settled (r := r) (hset b) ha (g := s.floor.cells) rfl
    generalize cellsTried s.floor.cells c r .granted = g at hgrant ⊢
    generalize beginMove c _ = v at hgrant ⊢
    exact hgrant.records tag 4 .done 0

end Sys2Proof.Machine

/-! DISABLE (R45, R64). -/

namespace Sys2Proof.Machine

variable {s u v t : State} {c : Cam} {w : MWord} {tag : BitVec 8} {spare kind : BitVec 4} {par : BitVec 2}
  {k : Camera} {e : ShotEngine} {g : Grid Cell} {r : ShotReq}

/-! What an event leaves of other cameras and blocks -/

theorem Settled.camOther (h : Settled (withCam c k u) v) {d : Cam} (hd : d ≠ c) : v.cam d = u.cam d :=
  (h.cam d).trans (Vector.getElem_set_ne c.isLt d.isLt fun e => hd (Fin.ext e.symm))

/-- With no camera waiting for floor but the one the event changes, the examination tries none (R107). -/
theorem releaseExam_settled (h : Settled (withCam c k u) v) (hk : inWaitingSet k = false) (hn : NoneWaits c u) : releaseExam v = v := by
  refine releaseExam_of_none fun d => ?_
  by_cases hd : d = c
  · rw [hd, h.camIs]; exact hk
  · rw [h.camOther hd]; exact hn d hd

theorem Settled.orphaned (h : Settled u v) (p : Owner → Bool) : Settled u (v.orphanPort p) := by
  obtain ⟨q, hq, ht, -⟩ := orphanPort_cases p v
  rw [hq]
  exact { h with timeout := ht.trans h.timeout }

/-! An adopting camera (R45) -/

/-- A camera that leaves its adoption for OFFLINE (R45, R46). -/
def unadopted (k : Camera) : Camera := { k with state := .offline, adoption := none, queue := [], cfg := emptyConfig }

theorem disableAdopting_eq {ad : Adoption} (h : (v.cam c).adoption = some ad) (tag : BitVec 8) :
    disableAdopting c tag v =
      releaseExam (cueDone c tag 12 (BitVec.ofNat 16 (v.cam c).queue.length)
        (recordResult c ad.tag 11 .abandoned 0 (((v.leaveAdoption c).orphanPort (adoptionOwner c)).modCam c unadopted))) := by
  simp only [disableAdopting, h]
  rfl

theorem cueDisable_adopting (h : (v.cam c).state = .adopting) (tag : BitVec 8) : cueDisable c tag v = disableAdopting c tag v := by
  simp only [cueDisable, h]

theorem cueDisable_enabled (h : enabledState (v.cam c).state = true) (tag : BitVec 8) : cueDisable c tag v = disableEnabled c tag v := by
  unfold cueDisable
  split
  · next hs => rw [hs] at h; cases h
  · next hs => rw [hs] at h; cases h
  · rfl

/-! An enabled camera's requests withdrawn (R64, R81, R88) -/

theorem shotWithout_shotWithout (p q : ShotReq → Bool) (e : ShotEngine) :
    shotWithout p (shotWithout q e) = shotWithout (fun r => q r || p r) e := by
  simp only [shotWithout, List.filter_filter, Option.filter_filter, Bool.not_or, Bool.and_comm]

theorem shotWithout_congr {p q : ShotReq → Bool} (h : ∀ r, Outstanding e r → p r = q r) : shotWithout p e = shotWithout q e := by
  have hfifo : e.fifo.filter (!p ·) = e.fifo.filter (!q ·) := List.filter_congr fun r hr => by rw [h r (.inl hr)]
  have hop : (e.op.filter fun o => !p o.req) = e.op.filter fun o => !q o.req := by
    cases he : e.op with
    | none => rfl
    | some o => rw [Option.filter_some, Option.filter_some, h o.req (.inr ⟨o, he, rfl⟩)]
  rw [shotWithout, shotWithout, hfifo, hop]

theorem fetchOf_iff : fetchOf c r = true ↔ r.cam = c ∧ r.work = .fetch := by simp [fetchOf]

theorem captureOf_iff : captureOf c r = true ↔ r.cam = c ∧ r.work ≠ .fetch := by simp [captureOf]

/-- The fetches and the captures of a camera are its requests. -/
theorem fetch_or_capture (c : Cam) : (fun r => fetchOf c r || captureOf c r) = fun r : ShotReq => r.cam == c := by
  funext r
  rw [fetchOf, captureOf, bne, ← Bool.and_or_distrib_left, Bool.or_not_self, Bool.and_true]

theorem outstandingCapture_eq_none (h : ∀ r, Outstanding v.shot r → captureOf c r = false) : outstandingCapture c v = none := by
  rw [outstandingCapture, List.find?_eq_none]
  intro r hr
  rw [h r]
  · nofun
  · rcases List.mem_append.mp hr with hr | hr
    · obtain ⟨o, ho, he⟩ := List.mem_map.mp hr
      exact .inr ⟨o, Option.mem_toList.mp ho, he⟩
    · exact .inl hr

theorem outstandingCapture_eq_some (hr : Outstanding v.shot r) (hc : captureOf c r = true)
    (hu : ∀ r', Outstanding v.shot r' → captureOf c r' = true → r' = r) : outstandingCapture c v = some r := by
  have hmem : ∀ x, x ∈ v.shot.op.toList.map ShotOp.req ++ v.shot.fifo ↔ Outstanding v.shot x := fun x => by
    rw [List.mem_append, List.mem_map]
    simp only [Option.mem_toList]
    exact or_comm
  cases hf : outstandingCapture c v with
  | none => exact absurd hc (List.find?_eq_none.mp hf r ((hmem r).mpr hr))
  | some x => rw [hu x ((hmem x).mp (List.mem_of_find?_eq_some hf)) (List.find?_some hf)]

theorem outstanding_shotWithout {p : ShotReq → Bool} : Outstanding (shotWithout p e) r ↔ Outstanding e r ∧ p r = false := by
  simp only [Outstanding, shotWithout, List.mem_filter, Option.filter_eq_some_iff, Bool.not_eq_true']
  constructor
  · rintro (⟨h, hp⟩ | ⟨o, ⟨ho, hp⟩, rfl⟩)
    · exact ⟨.inl h, hp⟩
    · exact ⟨.inr ⟨o, ho, rfl⟩, hp⟩
  · rintro ⟨h | ⟨o, ho, rfl⟩, hp⟩
    · exact .inl ⟨h, hp⟩
    · exact .inr ⟨o, ⟨ho, hp⟩, rfl⟩

/-- The Setpoint Writer without a camera's write-outs and fills (R64, R140). -/
def setpWithout (c : Cam) (p : SetpointWriter) : SetpointWriter :=
  { p with writeOuts := p.writeOuts.filter (·.cam != c), fills := p.fills.filter (·.cam != c) }

/-- The blocks without a camera's requests, the port's access perhaps given up. -/
def unrequested (c : Cam) (q : Port) (s : State) : State :=
  { s with port := q, shot := shotWithout (·.cam == c) s.shot, setp := setpWithout c s.setp }

theorem cancelled_none (harr : v.shot.arrivals = []) (h : ∀ r, Outstanding v.shot r → captureOf c r = false) :
    ∃ q, abandonCapture c (cancelWork (fetchOf c) v) = { v with port := q, shot := shotWithout (·.cam == c) v.shot } ∧
      q.timeout = v.port.timeout := by
  obtain ⟨q, hq, ht⟩ := cancelWork_shot (fetchOf c) harr
  have hnone : outstandingCapture c { v with port := q, shot := shotWithout (fetchOf c) v.shot } = none :=
    outstandingCapture_eq_none fun r hr => h r (outstanding_shotWithout.mp hr).1
  have hall : shotWithout (fetchOf c) v.shot = shotWithout (·.cam == c) v.shot := by
    rw [← fetch_or_capture]
    exact shotWithout_congr fun r hr => by rw [h r hr, Bool.or_false]
  refine ⟨q, ?_, ht⟩
  rw [hq, abandonCapture, hnone, hall]

theorem cancelled_some (harr : v.shot.arrivals = []) (hr : Outstanding v.shot r) (hc : captureOf c r = true)
    (hu : ∀ r', Outstanding v.shot r' → captureOf c r' = true → r' = r) :
    ∃ q, abandonCapture c (cancelWork (fetchOf c) v) =
        recordResult c r.tag 8 .abandoned 0 { v with port := q, shot := shotWithout (·.cam == c) v.shot } ∧
      q.timeout = v.port.timeout := by
  obtain ⟨q, hq, ht⟩ := cancelWork_shot (fetchOf c) harr
  have hfetch : fetchOf c r = false := by
    rw [Bool.eq_false_iff, ne_eq, fetchOf_iff]
    exact fun h => (captureOf_iff.mp hc).2 h.2
  have hsome : outstandingCapture c { v with port := q, shot := shotWithout (fetchOf c) v.shot } = some r :=
    outstandingCapture_eq_some (outstanding_shotWithout.mpr ⟨hr, hfetch⟩) hc fun r' hr' => hu r' (outstanding_shotWithout.mp hr').1
  obtain ⟨q', hq', ht'⟩ := cancelWork_shot (s := { v with port := q, shot := shotWithout (fetchOf c) v.shot }) (captureOf c) harr
  refine ⟨q', ?_, ht'.trans ht⟩
  rw [hq, abandonCapture, hsome]
  dsimp only
  rw [hq', ← fetch_or_capture, ← shotWithout_shotWithout]
  rfl

theorem withdrawn_none (harr : v.shot.arrivals = []) (h : ∀ r, Outstanding v.shot r → captureOf c r = false) :
    ∃ q, withdrawn c v = unrequested c q v ∧ q.timeout = v.port.timeout := by
  obtain ⟨q, hq, ht⟩ := cancelled_none harr h
  obtain ⟨q', hq', ht', -⟩ := orphanPort_cases (writeOutOwner c) (abandonCapture c (cancelWork (fetchOf c) v))
  refine ⟨q', ?_, ht'.trans (by rw [hq]; exact ht)⟩
  rw [withdrawn, hq', hq]
  rfl

theorem withdrawn_some (harr : v.shot.arrivals = []) (hr : Outstanding v.shot r) (hc : captureOf c r = true)
    (hu : ∀ r', Outstanding v.shot r' → captureOf c r' = true → r' = r) :
    ∃ q, withdrawn c v = recordResult c r.tag 8 .abandoned 0 (unrequested c q v) ∧ q.timeout = v.port.timeout := by
  obtain ⟨q, hq, ht⟩ := cancelled_some harr hr hc hu
  obtain ⟨q', hq', ht', -⟩ := orphanPort_cases (writeOutOwner c) (abandonCapture c (cancelWork (fetchOf c) v))
  refine ⟨q', ?_, ht'.trans (by rw [hq]; exact ht)⟩
  rw [withdrawn, hq', hq]
  rfl

theorem Settled.unrequested (h : Settled u v) (hs : v.setp.writeOuts = u.setp.writeOuts) {q : Port} (ht : q.timeout = v.port.timeout) :
    Settled
      { u with
        shot := shotWithout (·.cam == c) v.shot
        setp := { u.setp with writeOuts := u.setp.writeOuts.filter (·.cam != c) } }
      (unrequested c q v) :=
  { h with
    timeout := ht.trans h.timeout
    shot := fun _ => rfl
    writeOuts := by
      show (v.setp.writeOuts.filter (·.cam != c)).map writeOutPlan = (u.setp.writeOuts.filter (·.cam != c)).map writeOutPlan
      rw [hs] }

theorem Settled.unrequests (h : Settled (withCam c k u) v) (hs : v.setp.writeOuts = u.setp.writeOuts) {q : Port}
    (ht : q.timeout = v.port.timeout) :
    Settled
      (withCam c k
        { u with
          shot := shotWithout (·.cam == c) v.shot
          setp := { u.setp with writeOuts := u.setp.writeOuts.filter (·.cam != c) } })
      (Machine.unrequested c q v) := Settled.unrequested h hs ht

/-- What a DISABLE of an enabled camera leaves once its requests are withdrawn (R64, R111). -/
theorem disabled_settled (h : Settled (withCam c k u) v) (harr : v.shot.arrivals = []) (hg : cellsLeft v.floor c = g) (hn : NoneWaits c u) (tag : BitVec 8) (n : BitVec 16) :
    Settled
      (withCam c (withResult tag 12 .done n (disabledCamera k))
        { withCells g u with
          shot := shotStarted v.shot.fifo v.shot.op, stat := { u.stat with flags := u.stat.flags ||| resultFlags .done } })
      (startRequests (releaseExam (cueDone c tag 12 n ((v.freeOutside c none).modCam c disabledCamera)))) := by
  have hcells : Settled (withCam c k (withCells g u)) (v.freeOutside c none) :=
    h.recells (by rw [← hg]; exact paintCells_freeAll ..)
  have hshot : (v.freeOutside c none).shot = v.shot := State.freeOutside_shot ..
  generalize v.freeOutside c none = p at hcells hshot
  have hdone := (hcells.changes disabledCamera).records tag 12 .done n
  rw [cueDone, releaseExam_settled hdone rfl fun d hd => hn d hd]
  have hstart := hdone.started (o := none) ((congrArg ShotEngine.arrivals hshot).trans harr)
  rw [show (recordResult c tag 12 .done n (p.modCam c disabledCamera)).shot = v.shot from hshot] at hstart
  rw [Option.toList_none, List.append_nil] at hstart
  exact hstart

/-- The camera of an ADOPTING DISABLE (R45). -/
theorem unadopted_settled {ad : Adoption} (h : Settled (withCam c k u) v) (hk : k.adoption = some ad) (hq : v.adoptQueue = u.adoptQueue)
    (hn : NoneWaits c u) (tag : BitVec 8) :
    Settled
      (withCam c (withResult tag 12 .done (BitVec.ofNat 16 k.queue.length) (withResult ad.tag 11 .abandoned 0 (unadopted k)))
        { u with
          adoptQueue := u.adoptQueue.filter (· != c)
          stat := { u.stat with flags := u.stat.flags ||| resultFlags .abandoned ||| resultFlags .done } })
      (disableAdopting c tag v) := by
  have hleave : Settled (withCam c k { u with adoptQueue := u.adoptQueue.filter (· != c) }) (v.leaveAdoption c) :=
    { h with adoptQueue := congrArg (List.filter (· != c)) hq }
  have hdone := (((hleave.orphaned (adoptionOwner c)).changes unadopted).records ad.tag 11 .abandoned 0).records tag 12 .done
    (BitVec.ofNat 16 k.queue.length)
  rw [disableAdopting_eq (by rw [h.camIs]; exact hk), h.camIs, cueDone, releaseExam_settled hdone rfl fun d hd => hn d hd]
  exact hdone

/-- Settles O36: the DISABLE of an ADOPTING camera, and of an enabled one with or without an outstanding CAPTURE. -/
theorem disableTakesTheCameraOut : Obligations.DisableTakesTheCameraOut := by
  rintro s c tag spare par w rfl h hs hn
  refine ⟨_, rfl, post_put h, fun ad hst had => post_judged h fun b => ?_, fun k n he hquiet hk hcount k' hk' => post_started h fun b => ?_⟩
  · rw [judgeCue_disable, cueDisable_adopting (v := posted b s c _) hst]
    have hset := unadopted_settled (posted_own b s c (commandWord tag spare 12 par)) had rfl hn tag
    exact { hset with flags := hset.flags.trans (resultFlags_both (by decide) s.stat.flags) }
  · rw [judgeCue_disable, cueDisable_enabled (v := posted b s c _) he, disableEnabled_eq, posted_cam, ← hcount]
    have harr : (shotWithout (·.cam == c) s.shot).arrivals = [] := hquiet.1
    rcases hk' with ⟨hfetch, rfl⟩ | ⟨r, hr, hrc, hrw, hru, rfl⟩
    · have hno : ∀ r, Outstanding s.shot r → captureOf c r = false := fun r hr => by
        rw [Bool.eq_false_iff, ne_eq, captureOf_iff]
        exact fun hc => hc.2 (hfetch r hr hc.1)
      obtain ⟨q, hq, ht⟩ := withdrawn_none (v := posted b s c (commandWord tag spare 12 par)) hquiet.1 hno
      have hbase := (posted_own b s c (commandWord tag spare 12 par)).unrequests rfl ht
      have hset := disabled_settled (g := cellsLeft s.floor c) hbase harr rfl hn tag n
      rw [hq, hk]
      generalize cellsLeft s.floor c = g at hset ⊢
      exact hset
    · obtain ⟨q, hq, ht⟩ := withdrawn_some (v := posted b s c (commandWord tag spare 12 par)) hquiet.1 hr (captureOf_iff.mpr ⟨hrc, hrw⟩)
        fun r' hr' hc' => hru r' hr' (captureOf_iff.mp hc').1 (captureOf_iff.mp hc').2
      have hbase := (posted_own b s c (commandWord tag spare 12 par)).unrequests rfl ht
      have hset := disabled_settled (g := cellsLeft s.floor c) (hbase.records r.tag 8 .abandoned 0) harr rfl hn tag n
      rw [hq, hk]
      generalize cellsLeft s.floor c = g at hset ⊢
      exact { hset with flags := hset.flags.trans (resultFlags_both (by decide) s.stat.flags) }

end Sys2Proof.Machine

/-! The planning of an active cue, with every outcome (R25, R50, R104, R106). -/

namespace Sys2Proof.Machine

variable {s u v t : State} {c : Cam} {w : MWord} {tag : BitVec 8} {spare kind : BitVec 4} {par : BitVec 2}
  {q : Cue} {k : Camera} {g : Grid Cell} {r : Rect} {pl : Plan} {req : MoveRequest}

/-- What a planning leads to, seen through what its outcomes imply. -/
theorem PlanningGives.imp {planned : Planned} {ends ends' : Camera → Code → Prop} {goes goes' : Grid Cell → Camera → Prop}
    (h : PlanningGives s c q k planned ends goes) (he : ∀ k' code, ends k' code → ends' k' code) (hg : ∀ g k', goes g k' → goes' g k') :
    PlanningGives s c q k planned ends' goes' where
  noTravel d hd := he _ _ (h.noTravel d hd)
  tooLong hd := he _ _ (h.tooLong hd)
  waits pl hd hk hr := hg _ _ (h.waits pl hd hk hr)
  begins pl hd hk hs ha := hg _ _ (h.begins pl hd hk hs ha)
  keepOut pl r hd hk hr hb := he _ _ (h.keepOut pl r hd hk hr hb)
  roams pl r floor hd hk hr hb hf :=
    ⟨fun hw => hg _ _ ((h.roams pl r floor hd hk hr hb hf).1 hw), fun hs ha =>
      ⟨fun hn => hg _ _ (((h.roams pl r floor hd hk hr hb hf).2 hs ha).1 hn),
        fun o hn ho => hg _ _ (((h.roams pl r floor hd hk hr hb hf).2 hs ha).2 o hn ho)⟩⟩

theorem planActive_noTravel {d : BitVec 7} (h : planMove (v.cam c).cfg (v.cam c).setpoints req = .noTravel d) :
    planActive c req v = (endActive c .noTravel (d.setWidth 16) v, true) := by simp only [planActive, h]

theorem planActive_tooLong (h : planMove (v.cam c).cfg (v.cam c).setpoints req = .tooLong) :
    planActive c req v = (endActive c .tooLong 0 v, true) := by simp only [planActive, h]

theorem planActive_plan (h : planMove (v.cam c).cfg (v.cam c).setpoints req = .plan pl) :
    planActive c req v =
      if (planClaim c pl v).2.1 then (endActive c .keepOut 0 v, true)
      else reasonsChanged c (v.modCam c (writePlan pl (planClaim c pl v).1 (planClaim c pl v).2.2)) := by simp only [planActive, h]

theorem planClaim_fixed (h : (v.cam c).cfg.kind ≠ some .roaming) (pl : Plan) : planClaim c pl v = (none, false, false) := by
  refine if_neg ?_
  rw [isRoaming, beq_iff_eq]
  exact h

theorem planClaim_of_roaming (h : (v.cam c).cfg.kind = some .roaming) (pl : Plan) :
    planClaim c pl v =
      (some (claimRect v.floor (v.cam c).cfg.margin pl.origin pl.target),
        anyCell v.floor (claimRect v.floor (v.cam c).cfg.margin pl.origin pl.target) (· == .blocked),
        (pl.delta[floorX] != 0 || pl.delta[floorY] != 0) &&
          anyCell v.floor (claimRect v.floor (v.cam c).cfg.margin pl.origin pl.target) (· != .held c)) := by
  refine if_pos ?_
  rw [isRoaming, beq_iff_eq]
  exact h

theorem planned_waits {x y : Bool} (h : x = true ∨ y = true ∧ pl.onAir = false) : x = true ∨ (y && !pl.onAir) = true := by
  rcases h with h | ⟨hy, hp⟩
  · exact .inl h
  · exact .inr (by rw [hy, hp]; rfl)

theorem planned_onAir {y : Bool} (h : y = false ∨ pl.onAir = true) : (y && !pl.onAir) = false := by
  rcases h with h | h <;> rw [h]
  · rfl
  · exact Bool.and_false _

theorem writePlan_free {claim : Option Rect} (floor : Bool) (hs : k.stopLatch = false) (ha : k.onAir = false ∨ pl.onAir = true) :
    writePlan pl claim floor k = movePlanned pl claim false false floor k := by
  show movePlanned pl claim k.stopLatch (k.onAir && !pl.onAir) floor k = _
  rw [hs, planned_onAir ha]

/-- The claim that needs floor (R104). -/
theorem floor_needed (f : FloorMap) (pl : Plan) (r : Rect) (c : Cam) {floor : Bool}
    (h : floor = true ↔ (pl.delta[floorX] ≠ 0 ∨ pl.delta[floorY] ≠ 0) ∧
      ∃ x y : Fin 32, inRect r x y = true ∧ gridAt f.cells x y ≠ .held c) :
    ((pl.delta[floorX] != 0 || pl.delta[floorY] != 0) && anyCell f r (· != .held c)) = floor := by
  refine Bool.eq_iff_iff.mpr (Iff.trans ?_ h.symm)
  simp only [Bool.and_eq_true, Bool.or_eq_true, bne_iff_ne, anyCell_iff]

/-- What a planning leaves, whichever way it goes, and whether it ended the cue. -/
theorem planActive_gives (h : Settled (withCam c k u) v) (ha : k.active = some q) (hfloor : v.floor = s.floor) (hu : u.floor = s.floor)
    (req : MoveRequest) :
    PlanningGives s c q k (planMove k.cfg k.setpoints req)
      (fun k' code => (∃ d, k' = cueEnded q code d k) ∧ planActive c req v = ((planActive c req v).1, true) ∧ (planActive c req v).1.shot = v.shot ∧
        Settled (withCam c k' { u with stat := { u.stat with flags := u.stat.flags ||| resultFlags code } }) (planActive c req v).1)
      fun g k' => planActive c req v = ((planActive c req v).1, false) ∧
        Settled (withCam c k' (withCells g u)) (planActive c req v).1 := by
  have hcam : v.cam c = k := h.camIs
  have hsame : withCells s.floor.cells u = u := by rw [← hu]; rfl
  have hplan := fun pl claim floor => h.changes (writePlan pl claim floor)
  have hwritten : ∀ pl claim floor, (v.modCam c (writePlan pl claim floor)).cam c = writePlan pl claim floor k := fun pl claim floor =>
    (hplan pl claim floor).camIs
  have hwaits : ∀ pl claim floor, (k.stopLatch = true ∨ k.onAir = true ∧ pl.onAir = false) →
      reasonsChanged c (v.modCam c (writePlan pl claim floor)) = (v.modCam c (writePlan pl claim floor), false) := fun pl claim floor hw =>
    reasonsChanged_waits (by rw [hwritten]; exact planned_waits hw)
  have hbegins : ∀ pl claim, k.stopLatch = false → (k.onAir = false ∨ pl.onAir = true) →
      reasonsChanged c (v.modCam c (writePlan pl claim false)) = (beginMove c (v.modCam c (writePlan pl claim false)), false) :=
    fun pl claim hs ho => by
      refine reasonsChanged_begins ?_ ?_ ?_ ?_ <;> rw [hwritten]
      · rfl
      · exact hs
      · exact planned_onAir ho
      · rfl
  constructor
  case noTravel =>
    intro d hd
    rw [planActive_noTravel (by rw [hcam]; exact hd)]
    exact ⟨⟨_, rfl⟩, rfl, endActive_shot .., h.ends ha ..⟩
  case tooLong =>
    intro hd
    rw [planActive_tooLong (by rw [hcam]; exact hd)]
    exact ⟨⟨_, rfl⟩, rfl, endActive_shot .., h.ends ha ..⟩
  case waits =>
    intro pl hd hk hw
    rw [planActive_plan (by rw [hcam]; exact hd), planClaim_fixed (by rw [hcam]; exact hk), hsame]
    dsimp only
    rw [if_neg nofun, hwaits _ _ _ hw]
    exact ⟨rfl, hplan pl none false⟩
  case begins =>
    intro pl hd hk hs ho
    rw [planActive_plan (by rw [hcam]; exact hd), planClaim_fixed (by rw [hcam]; exact hk), hsame]
    dsimp only
    rw [if_neg nofun, hbegins _ _ hs ho]
    exact ⟨rfl, (hplan pl none false).begins ha⟩
  case keepOut =>
    intro pl r hd hk hr hb
    have hblocked : anyCell s.floor r (· == .blocked) = true := anyCell_blocked hb
    rw [planActive_plan (by rw [hcam]; exact hd), planClaim_of_roaming (by rw [hcam]; exact hk), hcam, hfloor, ← hr]
    dsimp only
    rw [if_pos hblocked]
    exact ⟨⟨_, rfl⟩, rfl, endActive_shot .., h.ends ha ..⟩
  case roams =>
    intro pl r floor hd hk hr hb hf
    have hfree : ¬anyCell s.floor r (· == .blocked) = true := by rw [anyCell_unblocked hb]; nofun
    have heq : planActive c req v = reasonsChanged c (v.modCam c (writePlan pl (some r) floor)) := by
      rw [planActive_plan (by rw [hcam]; exact hd), planClaim_of_roaming (by rw [hcam]; exact hk), hcam, hfloor, ← hr]
      dsimp only
      rw [if_neg hfree, floor_needed s.floor pl r c hf]
    rw [heq]
    refine ⟨fun hw => ?_, fun hs ho => ⟨fun hn => ?_, fun o hn htry => ?_⟩⟩
    · rw [hwaits _ _ _ hw, hsame]
      exact ⟨rfl, hplan pl (some r) floor⟩
    · subst hn
      rw [hbegins _ _ hs ho, hsame]
      exact ⟨rfl, (hplan pl (some r) false).begins ha⟩
    · subst hn
      have htries : reasonsChanged c (v.modCam c (writePlan pl (some r) true)) = tryClaim c (v.modCam c (writePlan pl (some r) true)) := by
        refine reasonsChanged_tries ?_ ?_ ?_ ?_ <;> rw [hwritten]
        · rfl
        · exact hs
        · exact planned_onAir ho
        · rfl
      have hcells : (v.modCam c (writePlan pl (some r) true)).floor.cells = s.floor.cells := congrArg FloorMap.cells hfloor
      have hclaim : ((v.modCam c (writePlan pl (some r) true)).cam c).claim = some r := by rw [hwritten]; rfl
      have hset := hplan pl (some r) true
      rw [writePlan_free true hs ho] at hset
      rw [htries]
      cases o with
      | keepOut => obtain ⟨x, y, hxy, hblocked⟩ := htry; exact absurd hblocked (hb x y hxy)
      | denied =>
        rw [tryClaim_denied hclaim (by rw [hcells]; exact htry)]
        refine ⟨rfl, ?_⟩
        show Settled (withCam c _ (withCells s.floor.cells u)) _
        rw [hsame]
        exact hset
      | granted =>
        rw [tryClaim_granted hclaim (by rw [hcells]; exact htry)]
        exact ⟨rfl, granted_settled hset ha hcells⟩

/-- Settles O26: the RETURN is the head at once, and its planning is the planner's outcome on the camera's record. -/
theorem planningIsTaken : Obligations.PlanningIsTaken := by
  rintro s c tag spare par w q k top below planned rfl h hs hq ha hst rfl rfl rfl
  set q := postedCue .ret tag (s.cam c) with hqdef
  set k : Camera := { s.cam c with active := some q } with hk
  have hlen : (s.cam c).queue.length < 4 := by rw [hq]; decide
  have hoff : (s.cam c).state ≠ .offline := by rw [hs]; nofun
  have hback : headActive q [] { s.cam c with queue := [q] } = k := by rw [hk, ← hq]; rfl
  obtain ⟨b, hb⟩ := postKind_judged h
  have hjoin := posted_joined b s c (commandWord tag spare 2 par) [q]
  have hset := hjoin.changes (headActive q [])
  rw [hback] at hset
  have hjudge : judgeCue c tag 2 (posted b s c (commandWord tag spare 2 par)) =
      (planActive c (returnRequest { s.cam c with queue := [q] } q top)
        (((posted b s c (commandWord tag spare 2 par)).modCam c fun k => { k with queue := [q] }).modCam c (headActive q []))).1 := by
    rw [judgeCue_return, cueReturn_accepted (v := posted b s c _) hoff hlen, joinQueue_tail (v := posted b s c _) (emptyCut ha), posted_cam,
      posted_joins_empty b hq, takeHead_return_planned (by rw [hjoin.camIs]; exact hs) (by rw [hjoin.camIs]) rfl (by rw [hjoin.camIs]; exact hst),
      hjoin.camIs]
  have hgives := planActive_gives (s := s) hset rfl rfl rfl (returnRequest { s.cam c with queue := [q] } q top)
  have hwaits : HostWaits (judgeCue c tag 2 (posted b s c (commandWord tag spare 2 par))) :=
    (judgeCue_inside ..).waits (posted_waits h b)
  refine ⟨_, rfl, post_put h, ?_⟩
  show PlanningGives s c q k _ _ _
  refine hgives.imp (fun k' code he => ?_) fun g k' hg => ?_
  · show Settled _ (postKind c tag spare 2 par s)
    rw [hb]
    refine settleWith_settled hwaits ?_ _ _
    rw [hjudge]
    exact he.2.2.2
  · show Settled _ (postKind c tag spare 2 par s)
    rw [hb]
    refine settleWith_settled hwaits ?_ _ _
    rw [hjudge]
    exact hg.2

end Sys2Proof.Machine

/-! The ends of the reads of a fetch and of an adoption (R44, R46, R90, R92). -/

namespace Sys2Proof.Machine

variable {s u v t : State} {c : Cam} {w : MWord} {a : Addr} {q : Cue} {k : Camera} {op : ShotOp} {x : Access}

/-! An own access that ends -/

theorem freePort_inside (hp : s.port.cur = some x) (ho : hostOwner x.owner = false) : Inside s s.freePort :=
  ⟨rfl, rfl, rfl, rfl, rfl, rfl, rfl, by rw [hp]; exact ho.symm⟩

/-! A fetch -/

theorem exec_fetchReadEnd {answer : Option MWord} (hp : s.port.cur = some ⟨.fetch, a, none, none, true⟩) :
    exec (.fetchReadEnd answer) s = .next (settle s (fetchRead a (answer.getD (s.read a)) s.freePort)) := by
  have ha := portAccess_of hp (p := (· == .fetch)) rfl
  show execFetchReadEnd answer s = _
  rw [execFetchReadEnd, ha]
  rfl

theorem fetchRead_bad (hop : s.shot.op = some op) (hw : wordOk w = false) (a : Addr) :
    fetchRead a w s.freePort = failFetch op.req.cam .readParity (readTaken a w s) := by
  have hop' : s.freePort.shot.op = some op := hop
  simp only [fetchRead, hop', readTaken, hw, Bool.not_false, if_true, Bool.false_eq_true, if_false]

theorem fetchRead_invalid (hop : s.shot.op = some op) (hw : wordOk w = true) (hf : op.words = []) (hv : w.data.getLsbD 15 = false) (a : Addr) :
    fetchRead a w s.freePort = failFetch op.req.cam .shotEmpty s.freePort := by
  have hop' : s.freePort.shot.op = some op := hop
  have hbit : w.data[15] = false := hv
  simp only [fetchRead, hop', hw, Bool.not_true, Bool.false_eq_true, if_false, hf, hbit, and_self, if_true]

theorem fetchRead_good (hop : s.shot.op = some op) (hw : wordOk w = true) (hf : op.words ≠ [] ∨ w.data.getLsbD 15 = true) (a : Addr) :
    fetchRead a w s.freePort =
      if (op.words ++ [w.data]).length < 17 then
        s.freePort.modShot fun e => { e with op := some { op with words := op.words ++ [w.data] } }
      else completeFetch op.req.cam (op.words ++ [w.data]) s.freePort := by
  have hop' : s.freePort.shot.op = some op := hop
  have hvalid : ¬(op.words = [] ∧ w.data[15] = false) := fun ⟨he, hv⟩ => by
    rcases hf with hf | hf
    · exact hf he
    · rw [show w.data.getLsbD 15 = w.data[15] from rfl, hv] at hf; cases hf
  simp only [fetchRead, hop', hw, Bool.not_true, Bool.false_eq_true, if_false, hvalid]

theorem failFetch_inside (c : Cam) (code : Code) (s : State) : Inside s (failFetch c code s) :=
  (modShot_inside _ s).trans (failFetch_touches c code s).inside

theorem completeFetch_inside (c : Cam) (ws : List (BitVec 16)) (s : State) : Inside s (completeFetch c ws s) := by
  unfold completeFetch
  dsimp only
  split
  · exact (modShot_inside _ s).trans (nextHead_inside (planActive_touches ..).inside)
  · exact modShot_inside _ s

theorem fetchRead_inside (a : Addr) (w : MWord) (s : State) : Inside s (fetchRead a w s) := by
  unfold fetchRead
  split
  · exact .refl s
  · refine inside_ite ((error_inside ..).trans (failFetch_inside ..)) (inside_ite (failFetch_inside ..) ?_)
    dsimp only
    exact inside_ite (modShot_inside ..) (completeFetch_inside ..)

theorem modShot_op (hv : v.shot = ⟨[], some op, []⟩) (o : Option ShotOp) :
    (v.modShot fun e => { e with op := o }) = { v with shot := ⟨[], o, []⟩ } := by rw [State.modShot, hv]

/-- The flags of a refused result, as the statements write them (R85). -/
theorem refusedFlags {code : Code} (h : isRefusal code = true) (f : BitVec 12) :
    f ||| resultFlags code = f ||| flagCueResult ||| flagCueRefused := by rw [resultFlags, if_pos h, BitVec.or_assoc]

/-- A fetch that fails ends its cue, and the camera takes its next head (R49, R90). -/
theorem failFetch_settled (h : Settled (withCam c k u) v) (hs : k.state = .fetching) (ha : k.active = some q) (hg : GotoNext k)
    (hv : v.shot = ⟨[], some op, []⟩) (code : Code) :
    Settled
      (withCam c (headTaken (cueEnded q code 0 k))
        { u with shot := headAsked c k ⟨[], none, []⟩, stat := { u.stat with flags := u.stat.flags ||| resultFlags code } })
      (startRequests (failFetch c code v)) := by
  have hfree : Settled (withCam c k { u with shot := ⟨[], none, []⟩ }) (v.modShot fun e => { e with op := none }) := by
    rw [State.modShot, hv]
    exact h.reshoot _ (q := v.port) rfl
  have hshot : (endActive c code 0 (v.modShot fun e => { e with op := none })).shot = ⟨[], none, []⟩ := by
    rw [endActive_shot, State.modShot_shot, hv]
  have hstate : ((v.modShot fun e => { e with op := none }).cam c).state = .fetching := by rw [hfree.camIs]; exact hs
  have hhead := (hfree.ends ha code 0).takesHead rfl hg (by rw [hshot])
  rw [hshot] at hhead
  have hfail : failFetch c code v = takeHead c (endActive c code 0 (v.modShot fun e => { e with op := none })) := if_pos hstate
  rw [hfail]
  exact hhead

theorem completeFetch_fetching {ws : List (BitVec 16)} (hs : (v.cam c).state = .fetching) (ha : (v.cam c).active = some q) :
    completeFetch c ws v =
      nextHead c (planActive c (gotoRequest (v.cam c) q ws) (v.modShot fun e => { e with op := none })) := by
  have hs' : ((v.modShot fun e => { e with op := none }).cam c).state = .fetching := hs
  have ha' : ((v.modShot fun e => { e with op := none }).cam c).active = some q := ha
  simp only [completeFetch, hs', ha']
  rfl

theorem nextHead_ended (c : Cam) (v : State) : nextHead c (v, true) = takeHead c v := rfl

theorem nextHead_goes (c : Cam) (v : State) : nextHead c (v, false) = v := rfl

/-- Settles O39: each read of a fetch by its word, and the last by its planning. -/
theorem fetchReadEnds : Obligations.FetchReadEnds := by
  rintro s a answer w op c q hwaits hp hw hshot rfl hs ha hg
  have hop : s.shot.op = some op := by rw [hshot]
  have hin := (freePort_inside hp rfl).trans (fetchRead_inside a w s.freePort)
  have hwaits' : HostWaits (fetchRead a w s.freePort) := hin.waits hwaits
  refine ⟨_, exec_fetchReadEnd hp, ?_⟩
  rw [hw]
  refine ⟨settle_same hwaits' hin.mem s, fun hbad => ?_, fun hok hempty hv => ?_, fun hok hv hlen => ?_, fun hok hlen => ?_⟩
  · have hset : Settled (withCam op.req.cam (s.cam op.req.cam) (withError .ownParity true a w s)) (readTaken a w s) := by
      have htaken := readTaken_settled a w s
      rw [ownTested_bad hbad] at htaken
      exact htaken.own
    have hshot' : (readTaken a w s).shot = ⟨[], some op, []⟩ := by rw [readTaken, hbad]; exact hshot
    refine settle_started hwaits' ?_ s
    rw [fetchRead_bad hop hbad]
    have hfail := failFetch_settled hset hs ha hg hshot' .readParity
    exact { hfail with flags := hfail.flags.trans (refusedFlags rfl _) }
  · refine settle_started hwaits' ?_ s
    rw [fetchRead_invalid hop hok hempty hv]
    have hfail := failFetch_settled (freePort_settled s).own hs ha hg hshot .shotEmpty
    exact { hfail with flags := hfail.flags.trans (refusedFlags rfl _) }
  · refine settle_settled hwaits' ?_ s
    rw [fetchRead_good hop hok hv, if_pos (by rw [List.length_append]; exact Nat.succ_lt_succ hlen), modShot_op (v := s.freePort) hshot]
    exact (freePort_settled s).reshoot _ (q := s.freePort.port) rfl
  · have hne : op.words ≠ [] := fun h => by rw [h] at hlen; cases hlen
    have hfull : ¬(op.words ++ [w.data]).length < 17 := by rw [List.length_append, hlen, List.length_singleton]; decide
    have hfree : Settled (withCam op.req.cam (s.cam op.req.cam) { s with shot := ⟨[], none, []⟩ })
        (s.freePort.modShot fun e => { e with op := none }) := by
      rw [modShot_op (v := s.freePort) hshot]
      exact (freePort_settled s).own.reshoot _ (q := s.freePort.port) rfl
    have hread : fetchRead a w s.freePort = nextHead op.req.cam
        (planActive op.req.cam (gotoRequest (s.cam op.req.cam) q (op.words ++ [w.data])) (s.freePort.modShot fun e => { e with op := none })) := by
      rw [fetchRead_good hop hok (.inl hne), if_neg hfull, completeFetch_fetching (v := s.freePort) hs ha]
      rfl
    have hquiet : (s.freePort.modShot fun e => { e with op := none }).shot = ⟨[], none, []⟩ := by rw [modShot_op (v := s.freePort) hshot]
    refine (planActive_gives (s := s) hfree ha rfl rfl (gotoRequest (s.cam op.req.cam) q (op.words ++ [w.data]))).imp
      (fun k' code he => ?_) fun g k' hgo => ?_
    · obtain ⟨⟨d, rfl⟩, heq, hsame, hset⟩ := he
      refine settle_started hwaits' ?_ s
      rw [hread, heq, nextHead_ended]
      have hhead := hset.takesHead rfl hg (by rw [hsame, hquiet])
      rw [hsame, hquiet] at hhead
      exact hhead
    · obtain ⟨heq, hset⟩ := hgo
      refine settle_settled hwaits' ?_ s
      rw [hread, heq, nextHead_goes]
      exact hset

end Sys2Proof.Machine

/-! The reads of an adoption, and its end by the ordered checks (R44, R46, R47). -/

namespace Sys2Proof.Machine

variable {s u v t : State} {c : Cam} {w : MWord} {a : Addr} {k : Camera} {ad : Adoption} {code : Code} {detail : BitVec 16}

/-! An adoption's end -/

theorem failAdoption_settled (h : Settled (withCam c k u) v) (hq : v.adoptQueue = u.adoptQueue) (ad : Adoption) (code : Code)
    (detail : BitVec 16) :
    Settled
      (withCam c (withResult ad.tag 11 code detail (unadopted k))
        { u with
          adoptQueue := u.adoptQueue.filter (· != c), stat := { u.stat with flags := u.stat.flags ||| resultFlags code } })
      (failAdoption c ad code detail v) := by
  have hleave : Settled (withCam c (unadopted k) { u with adoptQueue := u.adoptQueue.filter (· != c) })
      ((v.modCam c unadopted).leaveAdoption c) :=
    { h.changes unadopted with adoptQueue := congrArg (List.filter (· != c)) hq }
  exact hleave.records ad.tag 11 code detail

/-- The on-air state an adopted camera takes (R145). -/
def adoptedOnAir (l : LineMonitor) (n : Option (Fin 8)) : Bool := n.elim false fun i => l.onAir[i]

theorem succeedAdoption_eq (c : Cam) (ad : Adoption) (v : State) :
    succeedAdoption c ad v =
      takeHead c (recordResult c ad.tag 11 .done 0
        (((if (pendingConfig ad.taken).kind == some .roaming then v.holdRect c (adoptedRect v.floor ad.taken) else v).modCam c
          (adoptedCamera ad.taken (v.lines.stop || ad.stopSeen) (adoptedOnAir v.lines (pendingConfig ad.taken).tally)
            (if (pendingConfig ad.taken).kind == some .roaming then some (adoptedRect v.floor ad.taken) else none))).leaveAdoption c)) := by
  have hlines : (if (pendingConfig ad.taken).kind == some .roaming then v.holdRect c (adoptedRect v.floor ad.taken) else v).lines = v.lines := by
    split
    · exact State.holdRect_lines ..
    · rfl
  rw [succeedAdoption]
  cases htally : (pendingConfig ad.taken).tally <;> simp only [hlines] <;> rfl

/-- An adoption that succeeds, of a camera that is not ROAMING (R47). -/
theorem succeedAdoption_fixed (h : Settled (withCam c k u) v) (hq : v.adoptQueue = u.adoptQueue) (hl : v.lines = u.lines)
    (hshot : v.shot.arrivals = []) (hg : GotoNext k) (hk : (pendingConfig ad.taken).kind ≠ some .roaming) :
    Settled
      (withCam c (headTaken (withResult ad.tag 11 .done 0
          (adoptedCamera ad.taken (u.lines.stop || ad.stopSeen) (adoptedOnAir u.lines (pendingConfig ad.taken).tally) none k)))
        { u with
          shot := headAsked c k v.shot, adoptQueue := u.adoptQueue.filter (· != c)
          stat := { u.stat with flags := u.stat.flags ||| resultFlags .done } })
      (startRequests (succeedAdoption c ad v)) := by
  have hfixed : ((pendingConfig ad.taken).kind == some .roaming) = false := beq_eq_false_iff_ne.mpr hk
  rw [succeedAdoption_eq, hfixed]
  simp only [Bool.false_eq_true, if_false]
  rw [hl]
  set f := adoptedCamera ad.taken (u.lines.stop || ad.stopSeen) (adoptedOnAir u.lines (pendingConfig ad.taken).tally) none with hf
  have hleave : Settled (withCam c (f k) { u with adoptQueue := u.adoptQueue.filter (· != c) }) ((v.modCam c f).leaveAdoption c) :=
    { h.changes f with adoptQueue := congrArg (List.filter (· != c)) hq }
  exact (hleave.records ad.tag 11 .done 0).takesHead rfl hg hshot

/-- An adoption that succeeds, of a ROAMING camera with no cue queued (R47, R112). -/
theorem succeedAdoption_roaming (hk : (pendingConfig ad.taken).kind = some .roaming) (hq : (v.cam c).queue = []) :
    (∃ k, (succeedAdoption c ad v).cam c = withResult ad.tag 11 .done 0 k ∧ k.state = .idle ∧ k.held = some (adoptedRect v.floor ad.taken) ∧
      k.setpoints = adoptedPositions ad.taken) ∧
    (succeedAdoption c ad v).floor = (v.holdRect c (adoptedRect v.floor ad.taken)).floor := by
  have hroam : ((pendingConfig ad.taken).kind == some .roaming) = true := beq_iff_eq.mpr hk
  rw [succeedAdoption_eq, hroam]
  simp only [if_true]
  have hcam : (v.holdRect c (adoptedRect v.floor ad.taken)).cam c = v.cam c := State.holdRect_cam ..
  generalize v.holdRect c (adoptedRect v.floor ad.taken) = p at hcam
  set f := adoptedCamera ad.taken (v.lines.stop || ad.stopSeen) (adoptedOnAir v.lines (pendingConfig ad.taken).tally)
    (some (adoptedRect v.floor ad.taken)) with hf
  have hdone : (recordResult c ad.tag 11 .done 0 ((p.modCam c f).leaveAdoption c)).cam c = withResult ad.tag 11 .done 0 (f (v.cam c)) := by
    have hleave : ((p.modCam c f).leaveAdoption c).cam c = f (v.cam c) := (cam_modCam_self c f p).trans (congrArg f hcam)
    rw [recordResult_eq, State.flag_cam, cam_modCam_self, hleave]
  rw [takeHead_of_empty (by rw [hdone]; exact hq)]
  exact ⟨⟨f (v.cam c), hdone, rfl, rfl, rfl⟩, rfl⟩

/-! The ordered checks (R46) -/

theorem anyCell_taken {f : FloorMap} {r : Rect} :
    anyCell f r (fun v => v != .free && v != .held c) = true ↔
      ∃ x y : Fin 32, inRect r x y = true ∧ gridAt f.cells x y ≠ .free ∧ gridAt f.cells x y ≠ .held c := by
  simp only [anyCell_iff, Bool.and_eq_true, bne_iff_ne]

theorem adoptionCheck_fault (h : ad.fault = true) (b : Bool) (f : FloorMap) : adoptionCheck c ad b f = (.readParity, 0) := if_pos h

theorem adoptionCheck_config (h : ad.fault = false) (hc : configInvalid ad.taken = true) (f : FloorMap) :
    adoptionCheck c ad false f = (.configInvalid, 0) := by
  simp only [adoptionCheck, h, hc, Bool.false_eq_true, if_false, if_true]

theorem adoptionCheck_limits (h : ad.fault = false) (hc : configInvalid ad.taken = false) (hl : outOfLimits ad.taken ≠ 0) (f : FloorMap) :
    adoptionCheck c ad false f = (.outOfLimits, (outOfLimits ad.taken).setWidth 16) := by
  simp only [adoptionCheck, h, hc, Bool.false_eq_true, if_false, hl, ne_eq, not_false_eq_true, if_true]

theorem adoptionCheck_floor (h : ad.fault = false) (hc : configInvalid ad.taken = false) (hl : outOfLimits ad.taken = 0) (f : FloorMap) :
    adoptionCheck c ad false f =
      if (pendingConfig ad.taken).kind = some .roaming ∧
          anyCell f (adoptedRect f ad.taken) (fun v => v != .free && v != .held c) = true then (.floorConflict, 0)
      else (.done, 0) := by
  simp only [adoptionCheck, h, hc, Bool.false_eq_true, if_false, hl, ne_eq, not_true_eq_false]

theorem endAdoption_fails {b : Bool} (h : adoptionCheck c ad b v.floor = (code, detail)) (hd : code ≠ .done) :
    endAdoption c ad b v = failAdoption c ad code detail v := by
  rw [endAdoption, h]
  exact if_neg hd

theorem endAdoption_succeeds {b : Bool} (h : adoptionCheck c ad b v.floor = (.done, 0)) :
    endAdoption c ad b v = succeedAdoption c ad v := by rw [endAdoption, h]; rfl

/-! The end of a read -/

theorem exec_adoptionReadEnd {answer : Option MWord} (hp : s.port.cur = some ⟨.adoption c, a, none, none, true⟩) :
    exec (.adoptionReadEnd answer) s = .next (settle s (adoptionRead c a (answer.getD (s.read a)) s.freePort)) := by
  have ha := portAccess_of hp (p := anyAdoption) rfl
  show execAdoptionReadEnd answer s = _
  rw [execAdoptionReadEnd, ha]
  rfl

/-- An adoption that has taken one more word. -/
def adoptionTaken (w : MWord) (ad : Adoption) : Adoption :=
  { ad with taken := ad.taken ++ [if wordOk w then some w.data else none], fault := ad.fault || !wordOk w }

/-- The state in which an adoption goes on or ends after a read. -/
def adoptionGone (c : Cam) (a : Addr) (w : MWord) (ad : Adoption) (s : State) : State :=
  (readTaken a w s).modCam c fun k => { k with adoption := some (adoptionTaken w ad) }

theorem adoptionRead_goes (h : (s.cam c).adoption = some ad) (hn : (adoptNext c (adoptionTaken w ad).taken).isSome = true) (a : Addr) :
    adoptionRead c a w s.freePort = adoptionGone c a w ad s := by
  have h' : (s.freePort.cam c).adoption = some ad := h
  obtain ⟨off, hoff⟩ := Option.isSome_iff_exists.mp hn
  have hoff' : adoptNext c (ad.taken ++ [if wordOk w then some w.data else none]) = some off := hoff
  simp only [adoptionRead, h', hoff']
  rfl

theorem adoptionRead_ends (h : (s.cam c).adoption = some ad) (hn : adoptNext c (adoptionTaken w ad).taken = none) (a : Addr) :
    adoptionRead c a w s.freePort = endAdoption c (adoptionTaken w ad) false (adoptionGone c a w ad s) := by
  have h' : (s.freePort.cam c).adoption = some ad := h
  have hn' : adoptNext c (ad.taken ++ [if wordOk w then some w.data else none]) = none := hn
  simp only [adoptionRead, h', hn']
  rfl

theorem succeedAdoption_inside (c : Cam) (ad : Adoption) (s : State) : Inside s (succeedAdoption c ad s) := by
  rw [succeedAdoption_eq]
  refine Inside.trans ?_ (((modCam_inside ..).trans (leaveAdoption_inside ..)).trans ((recordResult_inside ..).trans (takeHead_inside ..)))
  exact inside_ite (paint_inside ..) (.refl s)

theorem endAdoption_inside (c : Cam) (ad : Adoption) (b : Bool) (s : State) : Inside s (endAdoption c ad b s) :=
  inside_ite (succeedAdoption_inside c ad s)
    ((modCam_inside c unadopted s).trans ((leaveAdoption_inside c _).trans (recordResult_inside ..)))

theorem adoptionRead_inside (c : Cam) (a : Addr) (w : MWord) (s : State) : Inside s (adoptionRead c a w s) := by
  unfold adoptionRead
  split
  · exact .refl s
  · dsimp only
    have htest : Inside s (if wordOk w then s else s.error .ownParity true a w) := inside_ite (.refl s) (error_inside ..)
    split
    · exact htest.trans (modCam_inside ..)
    · exact htest.trans ((modCam_inside ..).trans (endAdoption_inside ..))

theorem ownTested_cam (a : Addr) (w : MWord) (s : State) (d : Cam) : (ownTested a w s).cam d = s.cam d := by
  unfold ownTested
  split <;> rfl

theorem adoptionGone_settled (c : Cam) (a : Addr) (w : MWord) (ad : Adoption) (s : State) :
    Settled (withCam c { s.cam c with adoption := some (adoptionTaken w ad) } (ownTested a w s)) (adoptionGone c a w ad s) := by
  have hset := (readTaken_settled a w s).own (c := c)
  rw [ownTested_cam] at hset
  exact hset.changes fun k => { k with adoption := some (adoptionTaken w ad) }

theorem adoptionGone_blocks (c : Cam) (a : Addr) (w : MWord) (ad : Adoption) (s : State) :
    (adoptionGone c a w ad s).adoptQueue = s.adoptQueue ∧ (adoptionGone c a w ad s).floor = s.floor ∧
      (adoptionGone c a w ad s).lines = s.lines ∧ (adoptionGone c a w ad s).shot = s.shot := by
  unfold adoptionGone readTaken
  split <;> exact ⟨rfl, rfl, rfl, rfl⟩

theorem adoptionTaken_good (hw : wordOk w = true) (ad : Adoption) :
    adoptionTaken w ad = { ad with taken := ad.taken ++ [if wordOk w then some w.data else none] } := by
  rw [adoptionTaken, hw, Bool.not_true, Bool.or_false]

/-- Settles O37: a read goes on, or the checks of R46 end the adoption. -/
theorem adoptionReadEnds : Obligations.AdoptionReadEnds := by
  rintro s c a answer w ad taken hwaits hp had hw htaken
  have hin := (freePort_inside hp rfl).trans (adoptionRead_inside c a w s.freePort)
  have hwaits' : HostWaits (adoptionRead c a w s.freePort) := hin.waits hwaits
  have htk : (adoptionTaken w ad).taken = taken := htaken.symm
  have hgone := adoptionGone_settled c a w ad s
  obtain ⟨hqueue, hfloor, hlines, hshot⟩ := adoptionGone_blocks c a w ad s
  refine ⟨_, exec_adoptionReadEnd hp, ?_⟩
  rw [hw]
  refine ⟨settle_same hwaits' hin.mem s, fun hn => ?_, fun hn hbad => ?_, fun hn hok => ?_⟩ <;> rw [← htk] at hn
  · rw [adoptionRead_goes had hn a] at hwaits' ⊢
    have hset := settle_settled hwaits' hgone s
    refine ⟨fun hok => ?_, fun hbad => ?_⟩
    · rw [ownTested_good hok, adoptionTaken_good hok, ← htaken] at hset
      exact hset
    · rw [ownTested_bad hbad, adoptionTaken, ← htaken, hbad, Bool.not_false, Bool.or_true] at hset
      exact hset
  · rw [adoptionRead_ends had hn a] at hwaits' ⊢
    have hfault : (adoptionTaken w ad).fault = true := by rw [adoptionTaken, hbad, Bool.not_false, Bool.or_true]
    rw [endAdoption_fails (adoptionCheck_fault hfault false _) nofun] at hwaits' ⊢
    rw [ownTested_bad hbad] at hgone
    have hset := settle_settled hwaits' (failAdoption_settled hgone hqueue (adoptionTaken w ad) .readParity 0) s
    exact { hset with flags := hset.flags.trans (refusedFlags rfl _) }
  · rw [adoptionRead_ends had hn a] at hwaits' ⊢
    rw [ownTested_good hok] at hgone
    have hfault : (adoptionTaken w ad).fault = ad.fault := by rw [adoptionTaken_good hok]
    rw [← htk]
    refine ⟨fun code detail hd hcheck => ?_, fun hf hc hl hk hg hquiet => ?_, fun hf hc hl hk hcells hq => ?_⟩
    · have hcode : adoptionCheck c (adoptionTaken w ad) false (adoptionGone c a w ad s).floor = (code, detail) ∧ isRefusal code = true := by
        rw [hfloor]
        rcases hcheck with ⟨hf, rfl, rfl⟩ | ⟨hf, hc, rfl, rfl⟩ | ⟨hf, hc, hl, rfl, rfl⟩ | ⟨hf, hc, hl, hk, hcells, rfl, rfl⟩
        · exact ⟨adoptionCheck_fault (hfault.trans hf) ..,  rfl⟩
        · exact ⟨adoptionCheck_config (hfault.trans hf) hc _, rfl⟩
        · exact ⟨adoptionCheck_limits (hfault.trans hf) hc hl _, rfl⟩
        · exact ⟨(adoptionCheck_floor (hfault.trans hf) hc hl _).trans (if_pos ⟨hk, anyCell_taken.mpr hcells⟩), rfl⟩
      rw [endAdoption_fails hcode.1 hd] at hwaits' ⊢
      have hset := settle_settled hwaits' (failAdoption_settled hgone hqueue (adoptionTaken w ad) code detail) s
      exact { hset with flags := hset.flags.trans (refusedFlags hcode.2 _) }
    · have hdone : adoptionCheck c (adoptionTaken w ad) false (adoptionGone c a w ad s).floor = (.done, 0) := by
        rw [adoptionCheck_floor (hfault.trans hf) hc hl, if_neg fun h => hk h.1]
      rw [endAdoption_succeeds hdone] at hwaits' ⊢
      have hset := settle_started hwaits'
        (succeedAdoption_fixed hgone hqueue hlines (by rw [hshot]; exact hquiet.1) hg hk) s
      rw [hshot] at hset
      rcases htally : (pendingConfig (adoptionTaken w ad).taken).tally with _ | n <;> rw [htally] at hset
      · exact hset
      · exact hset
    · have hfree : anyCell s.floor (adoptedRect s.floor (adoptionTaken w ad).taken) (fun v => v != .free && v != .held c) = false := by
        rw [Bool.eq_false_iff, ne_eq, anyCell_taken]
        rintro ⟨x, y, hr, hne, hnh⟩
        exact (hcells x y hr).elim hne hnh
      have hdone : adoptionCheck c (adoptionTaken w ad) false (adoptionGone c a w ad s).floor = (.done, 0) := by
        rw [adoptionCheck_floor (hfault.trans hf) hc hl, hfloor, hfree, if_neg fun h => nomatch h.2]
      rw [endAdoption_succeeds hdone] at hwaits' ⊢
      obtain ⟨⟨k, hcam, hstate, hheld, hsp⟩, hcellsAfter⟩ :=
        succeedAdoption_roaming (v := adoptionGone c a w ad s) (c := c) hk (by rw [hgone.camIs]; exact hq)
      have hcalm := (settle_calm hwaits' s).toSettled
      have hcam' := (hcalm.cam c).trans hcam
      rw [hfloor] at hheld hcellsAfter
      refine ⟨by rw [hcam']; exact hstate, by rw [hcam']; exact hheld, by rw [hcam']; exact hsp, by rw [hcam']; rfl, fun x y => ?_⟩
      rw [hcalm.floor, hcellsAfter, holdRect_cell, hfloor]
      by_cases hr : inRect (adoptedRect s.floor (adoptionTaken w ad).taken) x y = true
      · rcases hcells x y hr with h | h <;> simp [hr, h]
      · simp [hr]

end Sys2Proof.Machine

/-! The ends of own writes (R94, R95, R134, R140, R161, R168). -/

namespace Sys2Proof.Machine

variable {s u v t : State} {c : Cam} {w h : MWord} {a b : Addr} {k : Camera} {op : ShotOp} {x : Access} {bank : Bank} {i : StatusItem}

/-! The word in memory -/

theorem written_waits (hw : HostWaits s) (hp : s.port.cur = some x) (ho : hostOwner x.owner = false) (a : Addr) (w : MWord) :
    HostWaits (s.write a w).freePort := hw.congr (t := (s.write a w).freePort) rfl rfl (by rw [hp]; exact ho.symm)

/-! A capture -/

theorem exec_captureWriteEnd (hp : s.port.cur = some ⟨.capture, a, some w, none, true⟩) :
    exec .captureWriteEnd s = .next (settle s (captureWrite (s.write a w).freePort)) := by
  have ha := portAccess_of hp (p := (· == .capture)) rfl
  show execCaptureWriteEnd s = _
  rw [execCaptureWriteEnd, ha]
  rfl

theorem captureWrite_goes (hop : v.shot = ⟨[], some op, []⟩) (h : op.written < 16) :
    captureWrite v = { v with shot := ⟨[], some { op with written := op.written + 1 }, []⟩ } := by
  have hop' : v.shot.op = some op := by rw [hop]
  have hlt : op.written + 1 < 17 := by omega
  rw [captureWrite, hop']
  exact (if_pos hlt).trans (modShot_op hop _)

theorem captureWrite_ends (hop : v.shot = ⟨[], some op, []⟩) (h : op.written = 16) :
    captureWrite v =
      recordResult op.req.cam op.req.tag 8 (if op.overlap then .doneOverlap else .done) 0 { v with shot := ⟨[], none, []⟩ } := by
  have hop' : v.shot.op = some op := by rw [hop]
  have hge : ¬op.written + 1 < 17 := by omega
  rw [captureWrite, hop']
  refine (if_neg hge).trans ?_
  rw [endCapture, modShot_op hop]
  rfl

theorem captureWrite_inside (s : State) : Inside s (captureWrite s) := by
  unfold captureWrite
  split
  · exact .refl s
  · exact inside_ite (modShot_inside ..) ((modShot_inside ..).trans (recordResult_inside ..))

theorem captureEnds : ∀ (s : State) (a : Addr) (w : MWord) (op : ShotOp), MemoryForm s → HostWaits s →
    s.port.cur = some ⟨.capture, a, some w, none, true⟩ → s.shot = ⟨[], some op, []⟩ →
    ∃ t, exec .captureWriteEnd s = .next t ∧ MemoryPut s a w t ∧
      (op.written < 16 → Settled { s with shot := ⟨[], some { op with written := op.written + 1 }, []⟩ } t) ∧
      (op.written = 16 →
        Settled
          { withCam op.req.cam
              (withResult op.req.tag 8 (if op.overlap then .doneOverlap else .done) 0 (s.cam op.req.cam)) s with
            shot := ⟨[], none, []⟩, stat := { s.stat with flags := s.stat.flags ||| flagCueResult } } t) := by
  intro s a w op hf hw hp hshot
  have hin := captureWrite_inside (s.write a w).freePort
  have hwaits := hin.waits (written_waits hw hp rfl a w)
  have hflags : resultFlags (if op.overlap then .doneOverlap else .done) = flagCueResult := by split <;> rfl
  refine ⟨_, exec_captureWriteEnd hp, settle_put hf hwaits hin.mem s, fun hlt => settle_settled hwaits ?_ s,
    fun hlast => settle_settled hwaits ?_ s⟩
  · rw [captureWrite_goes (v := (s.write a w).freePort) hshot hlt]
    exact (landed_settled a w s).reshoot _ (q := (s.write a w).freePort.port) rfl
  · rw [captureWrite_ends (v := (s.write a w).freePort) hshot hlast]
    have hfree : Settled (withCam op.req.cam (s.cam op.req.cam) { s with shot := ⟨[], none, []⟩ })
        { (s.write a w).freePort with shot := ⟨[], none, []⟩ } :=
      (landed_settled a w s).own.reshoot _ (q := (s.write a w).freePort.port) rfl
    have hset := hfree.records op.req.tag 8 (if op.overlap then .doneOverlap else .done) 0
    rw [hflags] at hset
    exact hset

/-! A write-out -/

theorem exec_writeOutWriteEnd {last : Bool} (hp : s.port.cur = some ⟨.writeOut c bank last, a, some w, none, true⟩) :
    exec .writeOutWriteEnd s =
      .next (settle s (writeOutEnded ⟨.writeOut c bank last, a, some w, none, true⟩ (s.write a w).freePort)) := by
  have ha := portAccess_of hp (p := anyWriteOut) rfl
  show execWriteOutWriteEnd s = _
  rw [execWriteOutWriteEnd, ha]
  rfl

theorem Settled.dropsWriteOut (h : Settled u v) (hs : v.setp.writeOuts = u.setp.writeOuts) (c : Cam) :
    Settled { u with setp := { u.setp with writeOuts := u.setp.writeOuts.filter (·.cam != c) } } (dropWriteOut c v) :=
  { h with
    writeOuts := by
      show (v.setp.writeOuts.filter (·.cam != c)).map writeOutPlan = (u.setp.writeOuts.filter (·.cam != c)).map writeOutPlan
      rw [hs] }

theorem writeOutEnds : ∀ (s : State) (a : Addr) (w : MWord) (c : Cam) (bank : Bank), MemoryForm s → HostWaits s →
    (s.port.cur = some ⟨.writeOut c bank false, a, some w, none, true⟩ →
      ∃ t, exec .writeOutWriteEnd s = .next t ∧ MemoryPut s a w t ∧ Settled s t) ∧
    (s.port.cur = some ⟨.writeOut c bank true, a, some w, none, true⟩ →
      ∃ t, exec .writeOutWriteEnd s = .next t ∧ MemoryPut s a w t ∧
        Settled
          (withCam c { s.cam c with activeBank := bank }
            { s with setp := { s.setp with writeOuts := s.setp.writeOuts.filter (·.cam != c) } }) t) := by
  refine fun s a w c bank hf hw => ⟨fun hp => ⟨_, exec_writeOutWriteEnd hp, ?_⟩, fun hp => ⟨_, exec_writeOutWriteEnd hp, ?_⟩⟩
  · have hwaits := written_waits hw hp rfl a w
    exact ⟨settle_put hf hwaits rfl s, settle_settled hwaits (landed_settled a w s) s⟩
  · have hwaits : HostWaits (writeOutEnded ⟨.writeOut c bank true, a, some w, none, true⟩ (s.write a w).freePort) := written_waits hw hp rfl a w
    refine ⟨settle_put hf hwaits rfl s, settle_settled hwaits ?_ s⟩
    exact ((landed_settled a w s).dropsWriteOut rfl c).modCam c fun k => { k with activeBank := bank }

/-! A fill -/

theorem exec_directFillWriteEnd {y : Option MWord} (hp : s.port.cur = some ⟨.fill c, a, some w, y, true⟩) :
    exec .directFillWriteEnd s = .next (settle s (endWrite ⟨.fill c, a, some w, y, true⟩ s).1) := by
  have ha := portAccess_of hp (p := anyFill) rfl
  show execDirectFillWriteEnd s = _
  rw [execDirectFillWriteEnd, ha]

/-! The Status Writer -/

theorem exec_statusWriteEnd (hp : s.port.cur = some ⟨.status i, a, some w, none, true⟩) :
    exec .statusWriteEnd s = .next (settle s (statusEnded (s.write a w).freePort)) := by
  have ha := portAccess_of hp (p := anyStatus) rfl
  show execStatusWriteEnd s = _
  rw [execStatusWriteEnd, ha]
  rfl

theorem statusEnded_settled (h : Settled u v) : Settled u (statusEnded v) := by
  unfold statusEnded
  split
  · exact { h with }
  · exact h

theorem statusEnded_inside (s : State) : Inside s (statusEnded s) := inside_ite (modStat_inside ..) (.refl s)

/-- The Shot Engine with no request and no operation asks for nothing. -/
theorem quiet_of_idle (h : s.shot = ⟨[], none, []⟩) : ShotQuiet s.shot := by rw [h]; exact ⟨rfl, fun _ => rfl⟩

theorem grantAdopt_none (hr : s.startup = .running) (h : s.adoptQueue = []) : grantAdopt s = none := by
  rw [grantAdopt_running hr, grantAdoption, h]

theorem grantStatus_rest {d : BitVec 16} {rest : List (Addr × BitVec 16)} (hr : s.startup = .running) (hs : s.stat.rest = (b, d) :: rest)
    (hi : s.stat.item = some i) : grantStatus s = some (grantItemWord i b d rest s) := by
  simp only [grantStatus, hr, ne_eq, not_true_eq_false, if_false, hs, hi]

theorem ownGrants_status {y : State} (hw : s.setp.writeOuts = []) (hf : s.setp.fills = []) (ho : s.shot.op = none) (hr : s.startup = .running)
    (hq : s.adoptQueue = []) (hg : grantStatus s = some y) : ownGrants s = [y] := by
  simp [ownGrants, grantSetpoint_none hw hf, grantShot_none ho, grantAdopt_none hr hq, hg]

/-- Settles O40: each own write's word is in memory, and its owner goes on or ends. -/
theorem ownWritesEnd : Obligations.OwnWritesEnd := by
  refine ⟨captureEnds, writeOutEnds, fun s a w hf hw => ⟨fun c h hp => ⟨_, exec_directFillWriteEnd hp, ?_⟩,
    fun c hp => ⟨_, exec_directFillWriteEnd hp, ?_⟩, fun i hp => ⟨_, exec_statusWriteEnd hp, ?_⟩⟩⟩
  · have hwaits : HostWaits (endWrite ⟨.fill c, a, some w, some h, true⟩ s).1 :=
      hw.congr (t := (endWrite ⟨.fill c, a, some w, some h, true⟩ s).1) rfl rfl (by rw [hp]; rfl)
    refine ⟨settle_put hf hwaits rfl s, settle_settled hwaits ?_ s, settle_port hwaits rfl s⟩
    constructor <;> first | rfl | exact fun _ => rfl
  · have hwaits := written_waits hw hp rfl a w
    exact ⟨settle_put hf hwaits rfl s, settle_settled hwaits (landed_settled a w s) s⟩
  · have hin := statusEnded_inside (s.write a w).freePort
    have hwaits := hin.waits (written_waits hw hp rfl a w)
    refine ⟨settle_put hf hwaits hin.mem s, settle_settled hwaits (statusEnded_settled (landed_settled a w s)) s,
      fun b d rest hrun hrest hitem hwo hfl hshot hadopt hreq hqueue => ?_⟩
    have hsame : statusEnded (s.write a w).freePort = (s.write a w).freePort :=
      if_neg (by rw [show (s.write a w).freePort.stat.rest = s.stat.rest from rfl, hrest]; nofun)
    rw [hsame] at hwaits ⊢
    have hgrant : grantStatus (markRecords s (s.write a w).freePort) = some (grantItemWord i b d rest (markRecords s (s.write a w).freePort)) :=
      grantStatus_rest hrun hrest hitem
    rw [settle, settleWith_eq (quiet_of_idle (s := (s.write a w).freePort) hshot) hwaits,
      arbitrate_single (s := markRecords s (s.write a w).freePort) rfl hreq
        (ownGrants_status hwo hfl (congrArg ShotEngine.op hshot) hrun hadopt hgrant)]
    rfl

end Sys2Proof.Machine

/-! The timeouts of own accesses (R163). -/

namespace Sys2Proof.Machine

variable {s u v t e : State} {c : Cam} {w second : Option MWord} {a : Addr} {k : Camera} {op : ShotOp} {x : Access} {bank : Bank}
  {i : StatusItem} {o : Owner} {landed live : Bool} {n m : Nat}

/-! What every timeout leaves -/

theorem timedOut_startup (landed : Bool) (x : Access) (s : State) : (timedOut landed x s).startup = s.startup := by
  show (if landed then landWrite x s else s).startup = s.startup
  split
  · obtain ⟨m, hm⟩ := landWrite_eq x s
    rw [hm]
  · rfl

theorem timedOut_keeps (landed : Bool) (x : Access) (s : State) :
    (timedOut landed x s).cams = s.cams ∧ (timedOut landed x s).shot = s.shot ∧ (timedOut landed x s).setp = s.setp ∧
      (timedOut landed x s).adoptQueue = s.adoptQueue ∧ (timedOut landed x s).port.cur = none := by
  have hrest : ∀ t, t = (if landed then landWrite x s else s) → t.cams = s.cams ∧ t.shot = s.shot ∧ t.setp = s.setp ∧ t.adoptQueue = s.adoptQueue := by
    rintro t rfl
    split
    · obtain ⟨m, hm⟩ := landWrite_eq x s
      rw [hm]
      exact ⟨rfl, rfl, rfl, rfl⟩
    · exact ⟨rfl, rfl, rfl, rfl⟩
  obtain ⟨hc, hs, hp, hq⟩ := hrest _ rfl
  exact ⟨hc, hs, hp, hq, rfl⟩

theorem timedOut_waits (hw : HostWaits s) (hp : s.port.cur = some x) (ho : hostOwner x.owner = false) (landed : Bool) :
    HostWaits (timedOut landed x s) :=
  hw.congr (timedOut_startup landed x s) (timedOut_bus landed x s) (by
    rw [(timedOut_keeps landed x s).2.2.2.2, hp]
    exact ho.symm)

/-- The timeout of an own access: what its owner does is what the event leaves. -/
theorem memoryTimeout_own (hf : MemoryForm s) (hp : s.port.cur = some ⟨o, a, w, second, live⟩)
    (hv : ownerTimeout ⟨o, a, w, second, live⟩ (timedOut landed ⟨o, a, w, second, live⟩ s) = v)
    (hm : v.mem = (timedOut landed ⟨o, a, w, second, live⟩ s).mem) (hw : HostWaits v) :
    exec (.memoryTimeout landed) s = .next (settle s v) ∧ Landed s a w landed (settle s v) := by
  refine ⟨?_, landed_of_mem hf (x := ⟨o, a, w, second, live⟩) ((settle_calm hw s).mem.trans (hm.trans (timedOut_mem ..)))⟩
  rw [exec_memoryTimeout hp, timeoutAccess_eq, hv]

theorem timedOut_own_settled (ho : hostOwner o = false) (landed : Bool) (he : e = withError .memTimeout true a (w.getD ⟨0, 3⟩) s) :
    Settled e (timedOut landed ⟨o, a, w, second, live⟩ s) := by
  have h := timedOut_settled landed ⟨o, a, w, second, live⟩ s
  rw [ho, Bool.not_false] at h
  rw [he]
  exact h

/-! The Status Writer's marks at a grant -/

/-- During the load a grant takes up at most the item of the load's next write. -/
theorem ownGrants_itemDue (hs : v.startup = .writing m) (hm : loadItem m ≠ some (i, true)) (hd : itemDue i v.stat = true)
    (h : t ∈ ownGrants v) : itemDue i t.stat = true := by
  simp only [ownGrants, List.mem_filterMap, List.mem_cons, List.not_mem_nil, or_false, id_eq, exists_eq_right] at h
  rcases h with h | h | h | h
  · rw [grantSetpoint_stat h.symm]; exact hd
  · rw [grantShot_stat h.symm]; exact hd
  · have hload : t = grantLoadWrite m v := by
      have := h.symm
      rw [grantAdopt, hs] at this
      exact (Option.some.inj this).symm
    rw [hload]
    unfold grantLoadWrite
    split
    · next j hj =>
      have hne : i ≠ j := fun hij => hm (hij ▸ hj)
      show itemDue i (takeItem j v.stat) = true
      rw [itemDue_takeItem, if_neg hne]
      exact hd
    · exact hd
  · rw [grantStatus_none_of_load (by rw [hs]; nofun)] at h
    cases h

/-- The end of an event is the marking of records and the grant, the Shot Engine having started what it had to. -/
theorem settleWith_form (hw : HostWaits v) (free : Bool) (old : State) :
    ∃ e, settleWith free old v = arbitrate free (markRecords old { v with shot := e }) := by
  obtain ⟨e, he⟩ := startRequests_eq v
  exact ⟨e, by rw [settleWith, pumpHost_of_waits (startRequests_waits hw), startRequests_idem, he]⟩

theorem markRecords_keeps (h : itemDue i v.stat = true) (old : State) : itemDue i (markRecords old v).stat = true := by
  cases i with
  | record c =>
    have hc : v.stat.recordDue[c.val] = true := h
    simp [markRecords, State.modStat, itemDue, hc]
  | _ => exact h

/-- During the load a due mark stands at the end of an event but for the item of the load's next write. -/
theorem settle_itemDue (hw : HostWaits v) (hs : v.startup = .writing m) (hm : loadItem m ≠ some (i, true)) (hd : itemDue i v.stat = true)
    (old : State) : itemDue i (settle old v).stat = true := by
  obtain ⟨e, he⟩ := settleWith_form hw old.port.cur.isNone old
  rw [settle, he]
  have hmarked : itemDue i (markRecords old { v with shot := e }).stat = true := markRecords_keeps (v := { v with shot := e }) hd old
  rcases arbitrate_granted old.port.cur.isNone (markRecords old { v with shot := e }) with h | ⟨t, n, ht, h⟩
  · rw [h]; exact hmarked
  · rw [h]
    rcases ht with ht | ht
    · have ht' := ownGrants_itemDue (v := markRecords old { v with shot := e }) hs hm hmarked ht
      exact ht'
    · have hstat := grantHost_stat ht
      show itemDue i t.stat = true
      rw [hstat]
      exact hmarked

/-- A due mark stands at the end of an event, or its item has been taken up. -/
theorem settle_due_or_taken (hw : HostWaits v) (hd : itemDue i v.stat = true) (old : State) :
    itemDue i (settle old v).stat = true ∨ TakenUp i (settle old v) := by
  obtain ⟨e, he⟩ := settleWith_form hw old.port.cur.isNone old
  rw [settle, he]
  exact arbitrate_keepsDue _ _ i (markRecords_keeps (v := { v with shot := e }) hd old)

theorem takeItem_rest (i : StatusItem) (x : StatusWriter) : (takeItem i x).rest = x.rest ∧ (takeItem i x).item = x.item := by
  cases i <;> exact ⟨rfl, rfl⟩

/-- Until the load has ended no group of the Status Writer goes on (R164). -/
theorem settle_noGroup (hw : HostWaits v) (hs : v.startup ≠ .running) (hr : v.stat.rest = []) (hi : v.stat.item = none) (old : State) :
    (settle old v).stat.rest = [] ∧ (settle old v).stat.item = none := by
  obtain ⟨e, he⟩ := settleWith_form hw old.port.cur.isNone old
  rw [settle, he]
  set u := markRecords old { v with shot := e } with hu
  have hu' : u.stat.rest = [] ∧ u.stat.item = none := ⟨hr, hi⟩
  have hus : u.startup ≠ .running := hs
  have hsame : ∀ {t : State}, t.stat = u.stat → t.stat.rest = [] ∧ t.stat.item = none := fun h => by rw [h]; exact hu'
  rcases arbitrate_granted old.port.cur.isNone u with h | ⟨t, n, ht, h⟩
  · rw [h]; exact hu'
  · rw [h]
    show t.stat.rest = [] ∧ t.stat.item = none
    rcases ht with ht | ht
    · simp only [ownGrants, List.mem_filterMap, List.mem_cons, List.not_mem_nil, or_false, id_eq, exists_eq_right] at ht
      rcases ht with h | h | h | h
      · exact hsame (grantSetpoint_stat h.symm)
      · exact hsame (grantShot_stat h.symm)
      · unfold grantAdopt at h
        split at h
        · cases h
        · cases h; exact hu'
        · next m _ =>
          cases h
          unfold grantLoadWrite
          split
          · next j _ =>
            obtain ⟨h1, h2⟩ := takeItem_rest j u.stat
            exact ⟨h1.trans hu'.1, h2.trans hu'.2⟩
          · exact hu'
        · next hrun => exact absurd hrun hus
      · rw [grantStatus_none_of_load hus] at h
        cases h
    · exact hsame (grantHost_stat ht)

/-! The load goes on after a timeout (logs 16, 36, 37) -/

/-- The writes of a group given up are passed over (log 16). -/
theorem nextLoadWrite_past {x : StatusWriter} : ∀ (fuel n : Nat), n ≤ m → m ≤ n + fuel →
    (∀ j, n ≤ j → j < m → ∃ i, loadItem j = some (i, false) ∧ itemDue i x = true) → (∀ i, loadItem m ≠ some (i, false)) →
    nextLoadWrite x fuel n = m
  | 0, n, hle, hge, _, _ => (Nat.le_antisymm hle hge : n = m)
  | fuel + 1, n, hle, hge, hskip, hhere => by
    rcases Nat.eq_or_lt_of_le hle with rfl | hlt
    · exact nextLoadWrite_here _ fun i hi => absurd hi (hhere i)
    · obtain ⟨i, hi, hd⟩ := hskip n (Nat.le_refl n) hlt
      rw [nextLoadWrite, hi]
      simp only [hd, if_true]
      exact nextLoadWrite_past fuel (n + 1) hlt (by omega) (fun j hj => hskip j (by omega)) hhere

theorem loadItem_record (c : Cam) {k : Nat} (hk : k < 64) :
    loadItem (65 + 64 * c.val + k) = some (.record c, decide (k = 0)) := by
  have hc : (65 + 64 * c.val + k - 65) / 64 = c.val := by omega
  have hm : (65 + 64 * c.val + k - 65) % 64 = k := by omega
  have hlt := c.isLt
  rw [loadItem, if_neg (by omega), if_neg (by omega), if_pos (by omega), hc, hm]
  rw [show Fin.ofNat 8 c.val = c from Fin.ext (Nat.mod_eq_of_lt hlt)]

/-- From the probe's word on, each write outside the records is an item of its own. -/
theorem loadItem_single (h : 576 < n) : ∃ i, loadItem n = some (i, true) ∧ (n < 593 → itemRank i + 577 = n + 14) ∧
    (593 ≤ n → n < 1617 → itemRank i + 593 = n + 38) := by
  rw [loadItem, if_neg (by omega), if_neg (by omega), if_neg (by omega)]
  split
  · next hz =>
    refine ⟨_, rfl, fun _ => ?_, fun h => absurd hz (by omega)⟩
    show 14 + (n - 577) % 16 + 577 = n + 14
    omega
  · next hz =>
    refine ⟨_, rfl, fun h => absurd h hz, fun _ hlt => ?_⟩
    show 38 + 32 * ((n - 593) / 32 % 32) + (n - 593) % 32 % 32 + 593 = n + 38
    omega

theorem loadItem_afterRecord (c : Cam) : ∃ j, loadItem (65 + 64 * (c.val + 1)) = some (j, true) ∧ j ≠ .record c := by
  by_cases hc : c.val + 1 < 8
  · refine ⟨.record ⟨c.val + 1, hc⟩, loadItem_record ⟨c.val + 1, hc⟩ (k := 0) (by omega), fun h => ?_⟩
    have := congrArg Fin.val (StatusItem.record.inj h)
    simp at this
  · obtain ⟨j, hj, hr, -⟩ := loadItem_single (n := 65 + 64 * (c.val + 1)) (by omega)
    refine ⟨j, hj, fun h => ?_⟩
    have hlt := c.isLt
    have hrank := hr (by omega)
    rw [h] at hrank
    have hrec : itemRank (.record c) = 30 + c.val := rfl
    omega

theorem loadItem_afterSingle (hn : n = 64 ∨ 576 < n) (hlt : n < 1616) :
    ∃ i j, loadItem n = some (i, true) ∧ loadItem (n + 1) = some (j, true) ∧ i ≠ j := by
  rcases hn with rfl | hn
  · exact ⟨.probe, .record 0, rfl, loadItem_record 0 (k := 0) (by omega), nofun⟩
  · obtain ⟨i, hi, hr⟩ := loadItem_single hn
    obtain ⟨j, hj, hr'⟩ := loadItem_single (n := n + 1) (by omega)
    refine ⟨i, j, hi, hj, fun h => ?_⟩
    subst h
    omega

/-- A load's write that times out makes its item due again (log 36). -/
theorem startupWriteTimeout_item {b : Bool} (h : loadItem n = some (i, b)) (v : State) :
    startupWriteTimeout n v = startupWrite n (v.modStat (markItem i true)) := by rw [startupWriteTimeout, h]

theorem startupWrite_goes {x : State} (h : nextLoadWrite x.stat 63 (n + 1) = m) (hm : m < 1617) :
    startupWrite n x = { x with startup := .writing m } := by rw [startupWrite, h, if_pos (by rw [loadWrites]; exact hm)]

theorem modStat_mark_settled (h : Settled u v) (i : StatusItem) : Settled u (v.modStat (markItem i true)) := by
  cases i <;> exact { h with }

theorem itemDue_marked (i : StatusItem) (x : StatusWriter) : itemDue i (markItem i true x) = true := by
  rw [itemDue_markItem, if_pos rfl]

theorem dropItem_settled (h : Settled u v) (i : StatusItem) : Settled u (dropItem i v) := by cases i <;> exact { h with }

theorem dropItem_group (i : StatusItem) (v : State) : (dropItem i v).stat.rest = [] ∧ (dropItem i v).stat.item = none := by
  cases i <;> exact ⟨rfl, rfl⟩

/-- The timeout of a capture (R95). -/
theorem timeoutShot_capture (hop : v.shot = ⟨[], some op, []⟩) (h : op.req.work ≠ .fetch) :
    timeoutShot v = recordResult op.req.cam op.req.tag 8 .memTimeout 0 { v with shot := ⟨[], none, []⟩ } := by
  have hop' : v.shot.op = some op := by rw [hop]
  rw [timeoutShot, hop']
  dsimp only
  split
  · contradiction
  · rw [endCapture, modShot_op hop]; rfl

/-- The timeout of a fetch (R90). -/
theorem timeoutShot_fetch (hop : v.shot = ⟨[], some op, []⟩) (h : op.req.work = .fetch) :
    timeoutShot v = failFetch op.req.cam .memTimeout v := by
  have hop' : v.shot.op = some op := by rw [hop]
  simp only [timeoutShot, hop', h]

theorem timeoutShot_inside (s : State) : Inside s (timeoutShot s) := by
  unfold timeoutShot
  split
  · exact .refl s
  · split
    · exact failFetch_inside ..
    · exact (modShot_inside ..).trans (recordResult_inside ..)

/-- The timeout of an adoption's read (R44, R46). -/
theorem timeoutAdoption_eq {ad : Adoption} (h : (v.cam c).adoption = some ad) :
    timeoutAdoption c v = failAdoption c ad (if ad.fault then .readParity else .memTimeout) 0 v := by
  have hcheck : adoptionCheck c ad true v.floor = (if ad.fault then .readParity else .memTimeout, 0) := by
    rw [adoptionCheck]
    split <;> rfl
  rw [timeoutAdoption, h]
  exact endAdoption_fails hcheck (by split <;> nofun)

theorem failAdoption_inside (c : Cam) (ad : Adoption) (code : Code) (detail : BitVec 16) (s : State) :
    Inside s (failAdoption c ad code detail s) :=
  (modCam_inside c unadopted s).trans ((leaveAdoption_inside c _).trans (recordResult_inside ..))

/-- A load's write that times out: its item is due again, and the load goes on (R164, R168, R170). -/
theorem loadWrite_timesOut {b : Bool} (hf : MemoryForm s) (he : e = withError .memTimeout true a (w.getD ⟨0, 3⟩) s)
    (hp : s.port.cur = some ⟨.startupWrite n, a, w, second, true⟩) (hi : loadItem n = some (i, b)) (hm : m < 1617)
    (hnext : ∀ x : StatusWriter, itemDue i x = true → nextLoadWrite x 63 (n + 1) = m) (hne : loadItem m ≠ some (i, true)) :
    ∃ t, exec (.memoryTimeout landed) s = .next t ∧ Landed s a w landed t ∧ Settled { e with startup := .writing m } t ∧
      itemDue i t.stat = true := by
  set v := timedOut landed ⟨.startupWrite n, a, w, second, true⟩ s with hv
  have hgo : ownerTimeout ⟨.startupWrite n, a, w, second, true⟩ v = { v.modStat (markItem i true) with startup := .writing m } :=
    (startupWriteTimeout_item hi v).trans (startupWrite_goes (hnext _ (itemDue_marked i _)) hm)
  have hwaits : HostWaits { v.modStat (markItem i true) with startup := .writing m } := .of_notRunning nofun
  obtain ⟨hx, hl⟩ := memoryTimeout_own hf hp hgo rfl hwaits
  exact ⟨_, hx, hl, settle_settled hwaits ((modStat_mark_settled (timedOut_own_settled rfl landed he) i).starting _) s,
    settle_itemDue hwaits rfl hne (itemDue_marked i _) s⟩

/-- Settles O10: what each owner does with its timeout. -/
theorem ownAccessTimesOut : Obligations.OwnAccessTimesOut := by
  intro s e a w second landed hf hw he
  have hflags : e.stat.flags = s.stat.flags ||| flagMemTimeout := by rw [he]; rfl
  have hrefused : ∀ code, isRefusal code = true →
      e.stat.flags ||| resultFlags code = s.stat.flags ||| flagMemTimeout ||| flagCueResult ||| flagCueRefused := fun code hc => by
    rw [hflags]; exact refusedFlags hc _
  have hcams : e.cams = s.cams := by rw [he]; rfl
  have hset : ∀ {o live}, hostOwner o = false → Settled e (timedOut landed ⟨o, a, w, second, live⟩ s) := fun ho =>
    timedOut_own_settled ho landed he
  have hown : ∀ {o live c}, hostOwner o = false → Settled (withCam c (s.cam c) e) (timedOut landed ⟨o, a, w, second, live⟩ s) :=
    fun {_ _ c} ho => by rw [← State.cam_congr hcams c]; exact (hset ho).own
  refine ⟨fun c bank ctl hp => ?_, fun c hp => ?_, fun op hp hshot hwork => ?_, fun n hp => ?_,
    fun op c q hp hshot hwork hc hs ha hg => ?_, fun o hp ho => ?_, fun c ad hp had => ?_, fun i hp => ?_, fun c k hk hp hrun => ?_,
    fun n hn hlt hp hrun => ?_⟩
  · have hwaits : HostWaits (dropWriteOut c (timedOut landed ⟨.writeOut c bank ctl, a, w, second, true⟩ s)) := timedOut_waits hw hp rfl landed
    obtain ⟨hx, hl⟩ := memoryTimeout_own hf hp rfl rfl hwaits
    have hsetp : e.setp = s.setp := by rw [he]; rfl
    have hdrop := (hset (o := .writeOut c bank ctl) (live := true) rfl).dropsWriteOut (by rw [(timedOut_keeps ..).2.2.1, hsetp]) c
    rw [hsetp] at hdrop
    exact ⟨_, hx, hl, settle_settled hwaits hdrop s⟩
  · have hwaits := timedOut_waits hw hp rfl landed
    obtain ⟨hx, hl⟩ := memoryTimeout_own hf hp rfl rfl hwaits
    exact ⟨_, hx, hl, settle_settled hwaits (hset rfl) s⟩
  · set v := timedOut landed ⟨.capture, a, w, second, true⟩ s with hv
    have hin := timeoutShot_inside v
    have hwaits := hin.waits (timedOut_waits hw hp rfl landed)
    obtain ⟨hx, hl⟩ := memoryTimeout_own hf hp rfl hin.mem hwaits
    have hshot' : v.shot = ⟨[], some op, []⟩ := (timedOut_keeps landed _ s).2.1.trans hshot
    have hfree : Settled (withCam op.req.cam (s.cam op.req.cam) { e with shot := ⟨[], none, []⟩ }) { v with shot := ⟨[], none, []⟩ } :=
      (hown rfl).reshoot _ (q := v.port) rfl
    refine ⟨_, hx, hl, settle_settled hwaits ?_ s⟩
    show Settled _ (timeoutShot v)
    rw [timeoutShot_capture hshot' hwork]
    have hend := hfree.records op.req.tag 8 .memTimeout 0
    exact { hend with flags := hend.flags.trans (hrefused .memTimeout rfl) }
  · have hwaits : HostWaits (beginWrites (timedOut landed ⟨.startupRead n, a, w, second, true⟩ s)) := .of_notRunning nofun
    obtain ⟨hx, hl⟩ := memoryTimeout_own hf hp rfl rfl hwaits
    exact ⟨_, hx, hl, settle_settled hwaits (((hset (o := .startupRead n) (live := true) rfl).starting (.writing 0)).entering []) s⟩
  · set v := timedOut landed ⟨.fetch, a, w, second, true⟩ s with hv
    have hin := timeoutShot_inside v
    have hwaits := hin.waits (timedOut_waits hw hp rfl landed)
    obtain ⟨hx, hl⟩ := memoryTimeout_own hf hp rfl hin.mem hwaits
    have hshot' : v.shot = ⟨[], some op, []⟩ := (timedOut_keeps landed _ s).2.1.trans hshot
    refine ⟨_, hx, hl, settle_started hwaits ?_ s⟩
    show Settled _ (startRequests (timeoutShot v))
    subst hc
    rw [timeoutShot_fetch hshot' hwork]
    have hend := failFetch_settled (hown (c := op.req.cam) rfl) hs ha hg hshot' .memTimeout
    exact { hend with flags := hend.flags.trans (hrefused .memTimeout rfl) }
  · have hgone : ownerTimeout ⟨o, a, w, second, false⟩ (timedOut landed ⟨o, a, w, second, false⟩ s) =
        timedOut landed ⟨o, a, w, second, false⟩ s ∧ hostOwner o = false := by
      rcases ho with rfl | rfl | ⟨c, rfl⟩ <;> exact ⟨rfl, rfl⟩
    have hwaits := timedOut_waits hw hp hgone.2 landed
    obtain ⟨hx, hl⟩ := memoryTimeout_own hf hp hgone.1 rfl hwaits
    exact ⟨_, hx, hl, settle_settled hwaits (hset hgone.2) s⟩
  · set v := timedOut landed ⟨.adoption c, a, w, second, true⟩ s with hv
    set code : Code := if ad.fault then .readParity else .memTimeout with hcode
    have hrefusal : isRefusal code = true := by rw [hcode]; split <;> rfl
    have had' : (v.cam c).adoption = some ad := by rw [State.cam_congr (timedOut_keeps landed _ s).1]; exact had
    have hin := failAdoption_inside c ad code 0 v
    have hwaits := hin.waits (timedOut_waits hw hp rfl landed)
    obtain ⟨hx, hl⟩ := memoryTimeout_own hf hp (timeoutAdoption_eq had') hin.mem hwaits
    have hqueue : e.adoptQueue = s.adoptQueue := by rw [he]; rfl
    have hend := failAdoption_settled (hown (o := .adoption c) (live := true) (c := c) rfl) ((timedOut_keeps landed _ s).2.2.2.1.trans hqueue.symm) ad code 0
    rw [hqueue] at hend
    refine ⟨_, hx, hl, settle_settled hwaits ?_ s⟩
    exact { hend with flags := hend.flags.trans (hrefused code hrefusal) }
  · set v := timedOut landed ⟨.status i, a, w, second, true⟩ s with hv
    obtain ⟨hrest, hitem⟩ := dropItem_group i v
    have hsame : (dropItem i v).startup = v.startup ∧ (dropItem i v).mem = v.mem ∧ (dropItem i v).bus = v.bus ∧ (dropItem i v).port = v.port :=
      ⟨rfl, rfl, rfl, rfl⟩
    have hwaits : HostWaits (dropItem i v) := (timedOut_waits hw hp rfl landed).congr hsame.1 hsame.2.2.1 (by rw [hsame.2.2.2])
    obtain ⟨hx, hl⟩ := memoryTimeout_own hf hp rfl hsame.2.1 hwaits
    exact ⟨_, hx, hl, settle_settled hwaits (dropItem_settled (hset rfl) i) s, settle_due_or_taken hwaits (itemDue_marked i _) s,
      fun hrun => settle_noGroup hwaits (by rw [hsame.1, timedOut_startup]; exact hrun) hrest hitem s⟩
  · obtain ⟨j, hj, hne⟩ := loadItem_afterRecord c
    have hlt := c.isLt
    refine loadWrite_timesOut hf he hp (loadItem_record c hk) (by omega) (fun x hx => ?_) fun h => ?_
    · refine nextLoadWrite_past _ _ (by omega) (by omega) (fun n h1 h2 => ⟨.record c, ?_, hx⟩) fun i h => ?_
      · obtain ⟨l, rfl⟩ : ∃ l, n = 65 + 64 * c.val + l := ⟨n - (65 + 64 * c.val), by omega⟩
        rw [loadItem_record c (by omega), decide_eq_false (by omega)]
      · rw [hj] at h
        cases h
    · rw [hj] at h
      exact hne (Prod.mk.inj (Option.some.inj h)).1
  · obtain ⟨i, j, hi, hj, hne⟩ := loadItem_afterSingle hn hlt
    obtain ⟨t, hx, hl, hset, hdue⟩ := loadWrite_timesOut (landed := landed) (m := n + 1) hf he hp hi (by omega)
      (fun x _ => nextLoadWrite_here _ fun i' h => by rw [hj] at h; cases h)
      fun h => hne (Prod.mk.inj (Option.some.inj (hj.symm.trans h))).1.symm
    refine ⟨t, hx, hl, hset, fun i' hi' => ?_⟩
    rw [← (Prod.mk.inj (Option.some.inj (hi.symm.trans hi'))).1]
    exact hdue

end Sys2Proof.Machine

/-! Floor geometry (R99, R100, R102, R114). -/

namespace Sys2Proof.Machine

variable {v w q lo hi : Int} {n : Nat}

/-! Values brought into a range -/

theorem clampInt_clamped (h : lo ≤ hi) (v : Int) : Clamped lo hi v (clampInt lo hi v) := by
  unfold clampInt
  refine ⟨fun hv => if_pos hv, fun hv => ?_, fun h1 h2 => ?_⟩
  · rw [if_neg (by omega), if_pos hv]
  · rw [if_neg (by omega), if_neg (by omega)]

theorem clampInt_mono (h : v ≤ w) (hr : lo ≤ hi) : clampInt lo hi v ≤ clampInt lo hi w := by
  unfold clampInt
  split <;> split <;> (try split) <;> (try split) <;> omega

theorem clampNat_clamped {lo hi : Nat} (h : lo ≤ hi) (v : Nat) : Clamped lo hi v (clampNat lo hi v) := by
  unfold clampNat
  refine ⟨fun hv => ?_, fun hv => ?_, fun h1 h2 => ?_⟩
  · rw [if_pos (by omega)]
  · rw [if_neg (by omega), if_pos (by omega)]
  · rw [if_neg (by omega), if_neg (by omega)]

/-! Cells -/

theorem cellOf_coe (o : BitVec 32) (n : Nat) (v : Int) : (cellOf o n v : Int) = clampInt 0 31 ((v - o.toInt) / 2 ^ n) :=
  Int.toNat_of_nonneg (clampInt_mem (lo := 0) (hi := 31) (by omega) _).1

/-- The cell of a greater count is no lesser one (R100). -/
theorem cellOf_mono (o : BitVec 32) (n : Nat) (h : v ≤ w) : cellOf o n v ≤ cellOf o n w := by
  have hdiv : (v - o.toInt) / 2 ^ n ≤ (w - o.toInt) / 2 ^ n := Int.ediv_le_ediv (by positivity) (by omega)
  have := clampInt_mono (lo := 0) (hi := 31) hdiv (by omega)
  rw [← cellOf_coe, ← cellOf_coe] at this
  omega

theorem ediv_two_pow (h : q * 2 ^ n ≤ v) (h' : v < (q + 1) * 2 ^ n) : v / 2 ^ n = q := by
  have hpos : (0 : Int) < 2 ^ n := by positivity
  have h1 := (Int.le_ediv_iff_mul_le hpos).mpr h
  have h2 := (Int.ediv_lt_iff_lt_mul hpos).mpr h'
  omega

theorem inRect_iff (r : Rect) (x y : Fin 32) : inRect r x y = true ↔ r.x0 ≤ x.val ∧ x.val ≤ r.x1 ∧ r.y0 ≤ y.val ∧ y.val ≤ r.y1 := by
  rw [inRect, decide_eq_true_eq]

theorem Between.min_max {lo hi : Int} (h : Between v w lo hi) : min v w = lo ∧ max v w = hi := by
  obtain ⟨h | h, hle⟩ := h <;> omega

theorem claimRect_between (f : FloorMap) (m : Int) {x0 x1 y0 y1 : Int} {o p : Positions} (hx : Between o[floorX] p[floorX] x0 x1)
    (hy : Between o[floorY] p[floorY] y0 y1) : claimRect f m o p = spanRect f (x0 - m) (x1 + m) (y0 - m) (y1 + m) := by
  rw [claimRect, hx.min_max.1, hx.min_max.2, hy.min_max.1, hy.min_max.2]

/-- A wider span covers a narrower one. -/
theorem spanRect_covers (f : FloorMap) {x0 x1 y0 y1 x0' x1' y0' y1' : Int} (h : x0 ≤ x0') (h1 : x1' ≤ x1) (h2 : y0 ≤ y0') (h3 : y1' ≤ y1)
    {x y : Fin 32} (hin : inRect (spanRect f x0' x1' y0' y1') x y = true) : inRect (spanRect f x0 x1 y0 y1) x y = true := by
  rw [inRect_iff] at hin ⊢
  obtain ⟨a, b, c, d⟩ := hin
  exact ⟨(cellOf_mono _ _ h).trans a, b.trans (cellOf_mono _ _ h1), (cellOf_mono _ _ h2).trans c, d.trans (cellOf_mono _ _ h3)⟩

/-- Settles O19: the cell's formula, the corners of each rectangle, and what they cover. -/
theorem floorRectanglesAreFormed : Obligations.FloorRectanglesAreFormed := by
  refine ⟨fun o n v q h h' => ?_, fun f m x y => rfl, fun f m x0 x1 y0 y1 o p hx hy => ⟨?_, fun u v x y h1 h2 h3 h4 hin => ?_⟩, fun e x y => ?_,
    inRect_iff⟩
  · rw [cellOf_coe, ediv_two_pow h h']
    exact clampInt_clamped (by omega) q
  · exact claimRect_between f m hx hy
  · rw [claimRect_between f m hx hy]
    exact spanRect_covers f (by omega) (by omega) (by omega) (by omega) hin
  · rw [inRect_iff]
    show Nat.min e.bounds[0] e.bounds[2] ≤ _ ∧ _ ≤ Nat.max e.bounds[0] e.bounds[2] ∧ Nat.min e.bounds[1] e.bounds[3] ≤ _ ∧
      _ ≤ Nat.max e.bounds[1] e.bounds[3] ↔ _
    rw [show Nat.min = min from rfl, show Nat.max = max from rfl, min_le_iff, min_le_iff, le_max_iff, le_max_iff]

end Sys2Proof.Machine

/-! The stages of the planner (R17 to R24). -/

namespace Sys2Proof.Machine

variable {cfg : CamConfig} {o target : Positions} {req : MoveRequest} {detail : BitVec 7} {a : Axis} {n : Nat}

/-! Requests (R17, R18) -/

theorem clampedRamp (n : Nat) : Clamped 0 32767 n (clampNat 0 32767 n) := clampNat_clamped (lo := 0) (hi := 32767) (by omega) n

theorem inMask_low (d : BitVec 16) (a : Axis) : inMask (d.extractLsb' 0 7) a = d.getLsbD a.val := by
  have ha := a.isLt
  simp [inMask, ha]

theorem gotoRequest_ramp {k : Camera} {q : Cue} {ws : List (BitVec 16)} :
    (gotoRequest k q ws).ramp = clampNat 0 32767 (if q.ramp = 65535 then (ws.getD 2 0).toNat else q.ramp.toNat) := rfl

theorem returnRequest_ramp {k : Camera} {q : Cue} {rec : Positions} :
    (returnRequest k q rec).ramp = if q.ramp = 65535 then k.cfg.ramp else clampNat 0 32767 q.ramp.toNat := rfl

theorem gotoRequest_target (k : Camera) (q : Cue) (ws : List (BitVec 16)) (a : Axis) :
    (gotoRequest k q ws).target[a] =
      if (ws.getD 0 0).getLsbD a.val = true then (ws.getD (4 + 2 * a.val) 0 ++ ws.getD (3 + 2 * a.val) 0 : BitVec 32).toInt
      else k.setpoints[a] := by
  rw [gotoRequest, getElem_positionsOf, inMask_low]
  rfl

/-! Stages 1 and 2 (R19, R20) -/

theorem Clamped.eq {lo hi v r : Int} (h : Clamped lo hi v r) : r = clampInt lo hi v := by
  obtain ⟨hlo, hhi, hin⟩ := h
  unfold clampInt
  split
  · exact hlo ‹_›
  · split
    · exact hhi ‹_›
    · exact hin (by omega) (by omega)

theorem axisHeld_iff : axisHeld cfg o req a = true ↔
    (if req.onAir then cfg.axes[a].von else cfg.axes[a].voff) = 0 ∧ clampedTarget cfg req.target a ≠ o[a] := by
  simp only [axisHeld, moveSpeed, Bool.and_eq_true, beq_iff_eq, bne_iff_ne]

theorem planTarget_at (a : Axis) : (planTarget cfg o req)[a] =
    if inMask cfg.mask a then (if axisHeld cfg o req a then o[a] else clampedTarget cfg req.target a) else 0 := getElem_positionsOf _ a

theorem planDetail_at (a : Axis) : (planDetail cfg o req).getLsbD a.val =
    (inMask cfg.mask a && ((clampedTarget cfg req.target a != req.target[a]) || axisHeld cfg o req a)) := getLsbD_maskOf _ a

theorem positions_ext {v w : Positions} (h : ∀ a : Axis, v[a] = w[a]) : v = w := Vector.ext fun i hi => h ⟨i, hi⟩

/-- What stages 1 and 2 give is the planner's target and detail mask. -/
theorem StagesGive.eq (h : StagesGive cfg o req target detail) : target = planTarget cfg o req ∧ detail = planDetail cfg o req := by
  have hat : ∀ a : Axis, target[a] = (planTarget cfg o req)[a] ∧ detail.getLsbD a.val = (planDetail cfg o req).getLsbD a.val := fun a => by
    rw [planTarget_at, planDetail_at]
    cases ha : inMask cfg.mask a with
    | false => exact h.absent a ha
    | true =>
      obtain ⟨v, hv, hheld, hfree⟩ := h.present a ha
      have hvc : v = clampedTarget cfg req.target a := hv.eq
      subst hvc
      by_cases hx : axisHeld cfg o req a = true
      · obtain ⟨ht, hd⟩ := hheld (axisHeld_iff.mp hx)
        simp only [hx, if_true, Bool.or_true, Bool.and_true]
        exact ⟨ht, hd⟩
      · obtain ⟨ht, hd⟩ := hfree (mt axisHeld_iff.mpr hx)
        simp only [Bool.eq_false_iff.mpr hx, if_true, Bool.false_eq_true, if_false, Bool.or_false, Bool.true_and]
        exact ⟨ht, Bool.eq_iff_iff.mpr (hd.trans bne_iff_ne.symm)⟩
  exact ⟨positions_ext fun a => (hat a).1, BitVec.eq_of_getLsbD_eq fun i hi => (hat ⟨i, hi⟩).2⟩

/-! Stages 3 and 4 (R21, R22) -/

theorem planDelta_travel (ha : inMask cfg.mask a = true) : (planDelta cfg o req)[a] = (planTarget cfg o req)[a] - o[a] := by
  rw [planDelta_of_present ha, planTarget_at, if_pos ha]

theorem travels_iff : Travels cfg o (planTarget cfg o req) a ↔ inMask cfg.mask a = true ∧ (planDelta cfg o req)[a] ≠ 0 := by
  refine and_congr_right fun ha => ?_
  rw [planDelta_travel ha]
  omega

theorem foldl_max_le {α : Type} {p : α → Prop} [DecidablePred p] {f : α → Nat} (l : List α) (m : Nat) :
    l.foldl (fun n a => if p a then n else Nat.max n (f a)) m ≤ n ↔ m ≤ n ∧ ∀ a ∈ l, ¬p a → f a ≤ n := by
  induction l generalizing m with
  | nil => simp
  | cons b l ih =>
    rw [List.foldl_cons, ih, List.forall_mem_cons]
    by_cases hb : p b
    · simp [hb]
    · rw [if_neg hb, show Nat.max = max from rfl, max_le_iff, and_assoc]
      simp [hb]

theorem le_foldl_min {α : Type} {p : α → Prop} [DecidablePred p] {f : α → Nat} (l : List α) (m : Nat) :
    n ≤ l.foldl (fun c a => if p a then c else Nat.min c (f a)) m ↔ n ≤ m ∧ ∀ a ∈ l, ¬p a → n ≤ f a := by
  induction l generalizing m with
  | nil => simp
  | cons b l ih =>
    rw [List.foldl_cons, ih, List.forall_mem_cons]
    by_cases hb : p b
    · simp [hb]
    · rw [if_neg hb, show Nat.min = min from rfl, le_min_iff, and_assoc]
      simp [hb]

theorem ceilDiv_le {x v m : Nat} (hv : 0 < v) : ceilDiv x v ≤ m ↔ x ≤ v * m := by
  rw [ceilDiv, ← Nat.lt_succ_iff, Nat.div_lt_iff_lt_mul hv, Nat.succ_mul, Nat.mul_comm m v]
  omega

/-- The frames that are enough are those from the planner's number on (R22). -/
theorem enoughFrames_iff : EnoughFrames cfg o req (planTarget cfg o req) n ↔ planFrames cfg req (planDelta cfg o req) ≤ n := by
  rw [planFrames, foldl_max_le]
  refine and_congr_right fun _ => ⟨fun h a ha hd => ?_, fun h a ht => ?_⟩
  · have hmask := mem_maskAxes.mp ha
    obtain ⟨hr, hx⟩ := h a (travels_iff.mpr ⟨hmask, hd⟩)
    rw [← planDelta_travel hmask] at hx
    have := (ceilDiv_le (moveSpeed_pos_of_travel hmask hd)).mpr hx
    omega
  · obtain ⟨hmask, hd⟩ := travels_iff.mp ht
    have hle := h a (mem_maskAxes.mpr hmask) hd
    refine ⟨by omega, ?_⟩
    rw [← planDelta_travel hmask]
    exact (ceilDiv_le (moveSpeed_pos_of_travel hmask hd)).mp (by omega)

theorem planFrames_of_least (h : Least (EnoughFrames cfg o req (planTarget cfg o req)) n) : planFrames cfg req (planDelta cfg o req) = n :=
  Nat.le_antisymm (enoughFrames_iff.mp h.1) (h.2 _ (enoughFrames_iff.mpr (Nat.le_refl _)))

theorem planMove_noTravel (h : ∀ a : Axis, ¬Travels cfg o (planTarget cfg o req) a) : planMove cfg o req = .noTravel (planDetail cfg o req) := by
  refine if_pos ?_
  rw [List.all_eq_true]
  intro a ha
  have := mt travels_iff.mpr (h a)
  rw [beq_iff_eq]
  by_contra hd
  exact this ⟨mem_maskAxes.mp ha, hd⟩

theorem planMove_tooLong (ht : Travels cfg o (planTarget cfg o req) a) (hn : 65535 < planFrames cfg req (planDelta cfg o req)) :
    planMove cfg o req = .tooLong := by
  obtain ⟨hmask, hd⟩ := travels_iff.mp ht
  have hall : ¬((maskAxes cfg.mask).all fun a => (planDelta cfg o req)[a] == 0) = true := fun h =>
    hd (beq_iff_eq.mp (List.all_eq_true.mp h a (mem_maskAxes.mpr hmask)))
  exact (if_neg hall).trans (if_pos hn)

/-! Stage 7 (R24) -/

theorem withinCap_iff {r c : Nat} : WithinCap cfg o (planTarget cfg o req) n r c ↔ c ≤ planCap cfg false (planDelta cfg o req) n r := by
  have hcap : planCap cfg false (planDelta cfg o req) n r = (maskAxes cfg.mask).foldl
      (fun c a => if (planDelta cfg o req)[a] = 0 then c else Nat.min c (256 * cfg.axes[a].von * (n - r) / (planDelta cfg o req)[a].natAbs))
      256 := rfl
  rw [hcap, le_foldl_min]
  refine and_congr_right fun _ => ⟨fun h a ha hd => ?_, fun h a ht => ?_⟩
  · have hmask := mem_maskAxes.mp ha
    rw [Nat.le_div_iff_mul_le (Int.natAbs_pos.mpr hd), planDelta_travel hmask]
    exact h a (travels_iff.mpr ⟨hmask, hd⟩)
  · obtain ⟨hmask, hd⟩ := travels_iff.mp ht
    have hle := h a (mem_maskAxes.mpr hmask) hd
    rw [Nat.le_div_iff_mul_le (Int.natAbs_pos.mpr hd), planDelta_travel hmask] at hle
    exact hle

/-- Settles O27: the requests, and the planner's stages on what stages 1 and 2 give. -/
theorem plannerStages : Obligations.PlannerStages := by
  refine ⟨fun k q ws rec => ⟨rfl, rfl, fun hr => ?_, fun hr => ?_, rfl, rfl, rfl, fun a => ?_⟩, fun cfg o req target detail hstages => ?_⟩
  · rw [gotoRequest_ramp, returnRequest_ramp, if_neg hr, if_neg hr]
    exact ⟨clampedRamp _, clampedRamp _⟩
  · rw [gotoRequest_ramp, returnRequest_ramp, if_pos hr, if_pos hr]
    exact ⟨clampedRamp _, rfl⟩
  · rw [gotoRequest_target]
    exact ⟨fun h => if_pos h, fun h => if_neg (by rw [h]; nofun)⟩
  · obtain ⟨rfl, rfl⟩ := hstages.eq
    refine ⟨planMove_noTravel, fun a n ht hleast => ?_⟩
    obtain rfl := planFrames_of_least hleast
    refine ⟨planMove_tooLong ht, fun hn => ⟨planOf cfg o req, planMove_eq_plan_iff.mpr ⟨⟨a, travels_iff.mp ht⟩, hn, rfl⟩, rfl, rfl, rfl, rfl,
      fun b => getElem_positionsOf _ b, fun b => getElem_positionsOf _ b, fun hair => ?_, fun hair => ?_⟩⟩
    · exact if_pos hair
    · have hc : (planOf cfg o req).c = planCap cfg false (planDelta cfg o req) (planOf cfg o req).n (planOf cfg o req).r := by rw [← hair]; rfl
      rw [hc]
      exact ⟨withinCap_iff.mpr (Nat.le_refl _), fun m hm => withinCap_iff.mp hm⟩

end Sys2Proof.Machine

/-! The config and the positions an adoption forms from the words it has taken (R2 to R14, R44 to R47). -/

namespace Sys2Proof.Machine

variable {t : List (Option (BitVec 16))} {a : Axis} {v : Int} {lo hi : Int}

/-! Places of the words -/

/-- The place of an entry in a filtered rising list is the number of the filtered entries below it. -/
theorem idxOf_filter {n : Nat} {p : Fin n → Bool} {a : Fin n} (ha : p a = true) : ∀ {l : List (Fin n)}, l.Pairwise (· < ·) → a ∈ l →
    (l.filter p).idxOf a = (l.filter fun b => decide (b < a) && p b).length
  | [], _, hmem => absurd hmem List.not_mem_nil
  | b :: l, hl, hmem => by
    obtain ⟨hb, hl⟩ := List.pairwise_cons.mp hl
    rcases List.mem_cons.mp hmem with rfl | hmem
    · have hnone : l.filter (fun b => decide (b < a) && p b) = [] := List.filter_eq_nil_iff.mpr fun x hx => by
        rw [decide_eq_false (not_lt_of_gt (hb x hx)), Bool.false_and]
        nofun
      simp [ha, hnone]
    · have hlt := hb a hmem
      have ih := idxOf_filter ha hl hmem
      cases hpb : p b with
      | false => simp [hpb, ih]
      | true => simp [hpb, hlt, ih, List.idxOf_cons_ne _ (ne_of_lt hlt)]

theorem idxOf_maskAxes {m : BitVec 7} (h : inMask m a = true) : (maskAxes m).idxOf a = axesBefore m a :=
  idxOf_filter h (List.pairwise_lt_finRange 7) (List.mem_finRange a)

/-! The formed mask (R2, R5) -/

theorem kindOf_cases (d : BitVec 16) : kindOf d = if d = 1 then some .head else if d = 2 then some .pedestal else if d = 3 then some .roaming else none :=
  rfl

theorem kindAxes_head (a : Axis) : (kindAxes .head).getLsbD a.val = decide (a.val < 4) := by revert a; decide
theorem kindAxes_pedestal (a : Axis) : (kindAxes .pedestal).getLsbD a.val = decide (a.val < 5) := by revert a; decide
theorem kindAxes_roaming (a : Axis) : (kindAxes .roaming).getLsbD a.val = true := by revert a; decide

theorem formedMask_of {k : BitVec 16} {x : Kind} (h : kindOf k = some x) (m : BitVec 16) : formedMask k m = kindAxes x &&& m.extractLsb' 0 7 := by
  rw [formedMask, h]

theorem inMask_formed (k m : BitVec 16) (a : Axis) :
    inMask (formedMask k m) a = true ↔ m.getLsbD a.val = true ∧ (k = 1 ∧ a.val < 4 ∨ k = 2 ∧ a.val < 5 ∨ k = 3) := by
  have hlow : (m.extractLsb' 0 7).getLsbD a.val = m.getLsbD a.val := inMask_low m a
  by_cases h1 : k = 1
  · rw [formedMask_of (x := .head) (by rw [kindOf_cases, if_pos h1]), inMask, BitVec.getLsbD_and, hlow, kindAxes_head, h1]
    simp [and_comm]
  · by_cases h2 : k = 2
    · rw [formedMask_of (x := .pedestal) (by rw [kindOf_cases, if_neg h1, if_pos h2]), inMask, BitVec.getLsbD_and, hlow, kindAxes_pedestal, h2]
      simp [and_comm]
    · by_cases h3 : k = 3
      · rw [formedMask_of (x := .roaming) (by rw [kindOf_cases, if_neg h1, if_neg h2, if_pos h3]), inMask, BitVec.getLsbD_and, hlow,
          kindAxes_roaming, h3]
        simp
      · have hnone : formedMask k m = 0 := by rw [formedMask, kindOf_cases, if_neg h1, if_neg h2, if_neg h3]
        refine ⟨fun h => ?_, ?_⟩
        · simp [hnone, inMask] at h
        · rintro ⟨-, ⟨h, -⟩ | ⟨h, -⟩ | h⟩
          exacts [absurd h h1, absurd h h2, absurd h h3]

theorem inMask_adopted (a : Axis) : inMask (adoptMask t) a = true ↔
    ∃ k m : BitVec 16, t.getD 0 none = some k ∧ t.getD 1 none = some m ∧ m.getLsbD a.val = true ∧
      (k = 1 ∧ a.val < 4 ∨ k = 2 ∧ a.val < 5 ∨ k = 3) := by
  rw [adoptMask]
  split
  · next k m hk hm =>
    rw [inMask_formed]
    refine ⟨fun h => ⟨k, m, hk, hm, h⟩, ?_⟩
    rintro ⟨k', m', hk', hm', h⟩
    rw [hk] at hk'
    rw [hm] at hm'
    cases hk'
    cases hm'
    exact h
  · next hne =>
    refine ⟨fun h => ?_, ?_⟩
    · simp [inMask] at h
    · rintro ⟨k, m, hk, hm, -⟩
      exact absurd hm (hne k m hk)

/-! The axes' values (R6, R7) -/

theorem speedOf_coe (v : Int) : (speedOf v : Int) = clampInt 0 1048575 v :=
  Int.toNat_of_nonneg (clampInt_mem (lo := 0) (hi := 1048575) (by omega) _).1

theorem pendingConfig_axis (h : inMask (adoptMask t) a = true) :
    (pendingConfig t).axes[a] =
      axisConfigOf (takenPair t (axisIndex t a)) (takenPair t (axisIndex t a + 2)) (takenPair t (axisIndex t a + 4))
        (takenPair t (axisIndex t a + 6)) := by
  show (Vector.ofFn _)[a.val] = _
  rw [Vector.getElem_ofFn]
  exact if_pos h

theorem axisIndex_eq (h : inMask (adoptMask t) a = true) : axisIndex t a = 8 + 10 * axesBefore (adoptMask t) a := by
  rw [axisIndex, adoptAxes, idxOf_maskAxes h]

theorem clampInt_ne_iff : clampInt lo hi v ≠ v ↔ v < lo ∨ hi < v := by
  unfold clampInt
  split
  · omega
  · split <;> omega

/-! The checks and the reads -/

theorem configInvalid_iff : configInvalid t = true ↔
    (pendingConfig t).kind = none ∨
    (pendingConfig t).kind = some .roaming ∧ ((takenWord t 1).getLsbD 5 = false ∨ (takenWord t 1).getLsbD 6 = false) ∨
    ∃ a : Axis, inMask (adoptMask t) a = true ∧ (pendingConfig t).axes[a].max < (pendingConfig t).axes[a].min := by
  have hbits : (!((takenWord t 1)[5] && (takenWord t 1)[6])) = true ↔ (takenWord t 1).getLsbD 5 = false ∨ (takenWord t 1).getLsbD 6 = false := by
    show (!((takenWord t 1).getLsbD 5 && (takenWord t 1).getLsbD 6)) = true ↔ _
    cases (takenWord t 1).getLsbD 5 <;> cases (takenWord t 1).getLsbD 6 <;> simp
  simp only [configInvalid, Bool.or_eq_true, Bool.and_eq_true, beq_iff_eq, hbits, List.any_eq_true, decide_eq_true_eq, adoptAxes, mem_maskAxes,
    or_assoc]

theorem adoptNext_none_iff (d : Cam) : adoptNext d t = none ↔
    ctrlIndex t + 1 + (if adoptValid t = true then 2 * (adoptAxes t).length else 0) ≤ t.length := by
  have hctrl : ctrlIndex t = 8 + 10 * (adoptAxes t).length := rfl
  unfold adoptNext
  dsimp only
  split
  · simp; omega
  · split
    · rw [Option.map_eq_none_iff, List.getElem?_eq_none_iff]
      omega
    · split
      · simp; omega
      · split
        · next hv =>
          rw [Option.map_eq_none_iff, List.getElem?_eq_none_iff]
          omega
        · simp; omega

theorem tallyOf_eq_some {d : BitVec 16} {n : Fin 8} : tallyOf d = some n ↔ d.toNat = n.val := by
  unfold tallyOf
  split
  · simp [Fin.ext_iff]
  · have := n.isLt
    simp only [reduceCtorEq, false_iff]
    omega

/-! The adopted positions (R44, R46 check 4, R47) -/

theorem adoptedPositions_absent (h : inMask (adoptMask t) a = false) : (adoptedPositions t)[a] = 0 := by
  rw [adoptedPositions, getElem_positionsOf, h]
  rfl

theorem adoptedPositions_home (h : inMask (adoptMask t) a = true) (hv : adoptValid t = false) :
    (adoptedPositions t)[a] = takenPair t (8 + 10 * axesBefore (adoptMask t) a + 8) := by
  rw [adoptedPositions, getElem_positionsOf, if_pos h, hv, axisIndex_eq h]
  rfl

theorem adoptedPositions_banked (h : inMask (adoptMask t) a = true) (hv : adoptValid t = true) :
    (adoptedPositions t)[a] = takenPair t (ctrlIndex t + 1 + 2 * axesBefore (adoptMask t) a) := by
  rw [adoptedPositions, getElem_positionsOf, if_pos h, if_pos hv, adoptAxes, idxOf_maskAxes h]

theorem getLsbD_outOfLimits (t : List (Option (BitVec 16))) (a : Axis) :
    (outOfLimits t).getLsbD a.val = true ↔ inMask (adoptMask t) a = true ∧
      ((adoptedPositions t)[a] < (pendingConfig t).axes[a].min ∨ (pendingConfig t).axes[a].max < (adoptedPositions t)[a]) := by
  rw [outOfLimits, getLsbD_maskOf, Bool.and_eq_true, bne_iff_ne, clampInt_ne_iff]

/-- Settles O38: the config's ranges and validity, the adopted positions, and the number of reads. -/
theorem configIsClamped : Obligations.ConfigIsClamped := by
  rintro t cfg rfl
  have hmask : (pendingConfig t).mask = adoptMask t := rfl
  rw [hmask]
  refine ⟨rfl, inMask_adopted, fun a i h hi => ?_, fun n => tallyOf_eq_some, clampNat_clamped (lo := 1) (hi := 256) (by omega) _,
    clampInt_clamped (by omega) _, rfl, clampedRamp _, configInvalid_iff, fun a i c hi hc => ⟨adoptedPositions_absent, fun h hv => ?_, fun h hv => ?_,
    getLsbD_outOfLimits t a⟩, fun d c hc => ⟨?_, ?_, ?_⟩⟩
  · rw [pendingConfig_axis h, axisIndex_eq h, ← hi]
    have hspeed (v : Int) : Clamped 0 1048575 v (speedOf v) := speedOf_coe v ▸ clampInt_clamped (by omega) v
    refine ⟨clampInt_clamped (by omega) _, clampInt_clamped (by omega) _, hspeed _, fun von hvon => ?_⟩
    rw [hvon.eq, ← speedOf_coe]
    exact Nat.cast_min _ _
  · rw [hc] at hv
    rw [adoptedPositions_home h hv, hi]
  · rw [hc] at hv ⊢
    exact adoptedPositions_banked h hv
  · rw [adoptNext_none_iff, hc]
    rfl
  · rw [hc]
    rfl
  · rw [hc]
    rfl

end Sys2Proof.Machine

/-! The words of an item (R168, R170, R172 to R176). -/

namespace Sys2Proof.Machine

variable {s t u v : State} {i : StatusItem} {k : Camera} {n : BitVec 16}

/-! Words of bits -/

theorem bitAt_le (b : Bool) (i : Nat) : bitAt b i ≤ 2 ^ i := by
  cases b
  · exact Nat.zero_le _
  · exact Nat.le_refl _

theorem sum_bitAt_lt : ∀ {n : Nat} (f : Fin n → Bool), ∑ i, bitAt (f i) i.val < 2 ^ n
  | 0, _ => by simp
  | n + 1, f => by
    have ih := sum_bitAt_lt fun i : Fin n => f i.castSucc
    have hb := bitAt_le (f (Fin.last n)) n
    rw [Fin.sum_univ_castSucc, Nat.pow_succ]
    simp only [Fin.val_castSucc, Fin.val_last]
    omega

theorem boolBits_succ {n : Nat} (f : Fin (n + 1) → Bool) :
    boolBits f = if f (Fin.last n) then boolBits (fun i => f i.castSucc) ||| 1#16 <<< n else boolBits fun i => f i.castSucc := by
  rw [boolBits, List.finRange_succ_last, List.foldl_append, List.foldl_map]
  rfl

/-- A word of marks has the value of its bits. -/
theorem boolBits_eq : ∀ {n : Nat} (f : Fin n → Bool), boolBits f = BitVec.ofNat 16 (∑ i, bitAt (f i) i.val)
  | 0, _ => rfl
  | n + 1, f => by
    have hlt := sum_bitAt_lt fun i : Fin n => f i.castSucc
    rw [boolBits_succ, boolBits_eq, Fin.sum_univ_castSucc]
    simp only [Fin.val_castSucc, Fin.val_last]
    cases f (Fin.last n) with
    | false => rfl
    | true =>
      have hshift : 1#16 <<< n = BitVec.ofNat 16 (2 ^ n) := BitVec.eq_of_toNat_eq (by simp [Nat.shiftLeft_eq])
      have hadd := Nat.two_pow_add_eq_or_of_lt hlt 1
      rw [Nat.mul_one] at hadd
      rw [if_pos rfl, hshift, ← BitVec.ofNat_or, Nat.or_comm, ← hadd, Nat.add_comm]
      rfl

theorem boolBits_nine (f : Fin 9 → Bool) : boolBits f = BitVec.ofNat 16
    (bitAt (f 0) 0 + bitAt (f 1) 1 + bitAt (f 2) 2 + bitAt (f 3) 3 + bitAt (f 4) 4 + bitAt (f 5) 5 + bitAt (f 6) 6 + bitAt (f 7) 7 + bitAt (f 8) 8) := by
  rw [boolBits_eq, Fin.sum_univ_castSucc, Fin.sum_univ_eight]
  rfl

theorem lineStateWord_bits (l : LineMonitor) : lineStateWord l = BitVec.ofNat 16
    (bitAt l.onAir[0] 0 + bitAt l.onAir[1] 1 + bitAt l.onAir[2] 2 + bitAt l.onAir[3] 3 + bitAt l.onAir[4] 4 + bitAt l.onAir[5] 5 +
      bitAt l.onAir[6] 6 + bitAt l.onAir[7] 7 + bitAt l.stop 8) :=
  boolBits_nine _

theorem marksWord_bits (k : Camera) : marksWord k = BitVec.ofNat 16
    (bitAt k.waitStop 0 + bitAt k.waitTally 1 + bitAt k.waitFloor 2 + bitAt k.halt 4 + bitAt k.abandon 5 + bitAt k.stopLatch 6 +
      bitAt k.onAir 7 + bitAt k.stale 8) :=
  boolBits_nine _

/-! A status record -/

theorem recordWords_table (n : BitVec 16) (k : Camera) : recordWords n k = (List.range 64).map (recordWord n k) := by
  have hmarks : marksWord k = recordWord n k 2 := marksWord_bits k
  have hactive : activeWords k = [recordWord n k 4, recordWord n k 5, recordWord n k 6, recordWord n k 7] := by
    unfold activeWords
    cases h : k.active <;> simp [recordWord, h]
  have hqueue : queueWords k = [recordWord n k 33, recordWord n k 34, recordWord n k 35, recordWord n k 36] := by
    have hword (o : Option Cue) : (o.map fun q => q.tag.setWidth 16).getD 0#16 = match o with | some q => q.tag.setWidth 16 | none => 0#16 := by
      cases o <;> rfl
    simp only [queueWords, List.range, List.range.loop, List.map, recordWord]
    exact congrArg₂ _ (hword _) (congrArg₂ _ (hword _) (congrArg₂ _ (hword _) (congrArg₂ _ (hword _) rfl)))
  have hheld : heldWords k = [recordWord n k 44, recordWord n k 45, recordWord n k 46, recordWord n k 47, recordWord n k 48] := by
    unfold heldWords
    cases h : k.held <;> simp [recordWord, h, natWord]
  rw [recordWords, recordBody, hmarks, hactive, hqueue, hheld]
  rfl

/-! The words of each item -/

theorem blockWord_hits (s : State) (m : Fin 8) : blockWord s (0x50 + m.val) = BitVec.ofNat 16 s.fences[m].hits := by
  have hm := m.isLt
  have hplace : Fin.ofNat 8 (0x50 + m.val - 0x50) = m := Fin.ext (by simp)
  rw [blockWord]
  repeat rw [if_neg (by omega)]
  rw [if_pos (by omega)]
  exact congrArg (fun j : Fin 8 => BitVec.ofNat 16 s.fences[j].hits) hplace

theorem recordWords_getD (n : BitVec 16) (k : Camera) {j : Nat} (hj : j < 64) : (recordWords n k).getD j 0 = recordWord n k j := by
  simp [recordWords_table, List.getD_eq_getElem?_getD, hj]

/-- A table's word with its offset as the port names it. -/
def wordAt (p : Nat × BitVec 16) : Offset × BitVec 16 := (BitVec.ofNat 16 p.1, p.2)

/-- The words an item is written as, once it is taken up, are those of the tables. -/
theorem itemWords_taken (s : State) (i : StatusItem) : itemWords (s.modStat (takeItem i)) i = (itemTable s i).map wordAt := by
  cases i with
  | lineState => exact congrArg (fun d => [((0x43 : Offset), d)]) (lineStateWord_bits s.lines)
  | hits m => exact congrArg (fun d => [(hitsOff m, d)]) (blockWord_hits _ m)
  | zone z =>
    have hoff : zoneOff z 5 = BitVec.ofNat 16 (0x105 + 8 * z.val) := congrArg (BitVec.ofNat 16) (by omega)
    exact congrArg (fun off => [(off, zoneCode s.floor.zones[z].status)]) hoff
  | record c =>
    have hseq : (s.modStat (takeItem (.record c))).stat.seq[c] = s.stat.seq[c] + 1 := by simp [State.modStat, takeItem, raiseSeq, markItem]
    rw [itemWords, itemTable, List.map_map]
    refine List.map_congr_left fun j hj => ?_
    rw [recordWords_getD _ _ (List.mem_range.mp hj), hseq]
    rfl
  | _ => rfl

/-! The first due item (R168) -/

/-- The items in the order of R168. -/
def statusItems : List StatusItem :=
  [.flags, .capture, .lineState, .syncGroup, .missed] ++ (List.finRange 8).map .hits ++ [.probe] ++ (List.finRange 16).map .zone ++
    (List.finRange 8).map .record ++ (List.finRange 32).flatMap fun y => (List.finRange 32).map fun x => .cell x y

theorem mem_statusItems (i : StatusItem) : i ∈ statusItems := by
  cases i <;> simp [statusItems]

theorem ranks_run {n : Nat} (f : Fin n → StatusItem) (b : Nat) (hf : ∀ m, itemRank (f m) = b + m.val) :
    ((List.finRange n).map f).map itemRank = List.range' b n := by
  rw [List.map_map, List.range'_eq_map_range, ← List.map_coe_finRange_eq_range, List.map_map]
  exact List.map_congr_left fun m _ => hf m

theorem flatMap_runs (b w : Nat) : ∀ n, ((List.range n).flatMap fun y => List.range' (b + w * y) w) = List.range' b (w * n)
  | 0 => rfl
  | n + 1 => by
    rw [List.range_succ, List.flatMap_append, flatMap_runs b w n, Nat.mul_succ, ← List.range'_append_1]
    simp

theorem cells_ranks :
    ((List.finRange 32).flatMap fun y => (List.finRange 32).map fun x => StatusItem.cell x y).map itemRank = List.range' 38 1024 := by
  rw [← flatMap_runs 38 32 32, ← List.map_coe_finRange_eq_range, List.flatMap_map, List.map_flatMap]
  exact congrArg (List.flatMap · (List.finRange 32)) (funext fun y => ranks_run (StatusItem.cell · y) (38 + 32 * y.val) fun _ => rfl)

theorem statusItems_ranks : statusItems.map itemRank = List.range 1062 := by
  simp only [statusItems, List.map_append, cells_ranks, ranks_run StatusItem.hits 5 fun _ => rfl, ranks_run StatusItem.zone 14 fun _ => rfl,
    ranks_run StatusItem.record 30 fun _ => rfl]
  have hfirst : [StatusItem.flags, .capture, .lineState, .syncGroup, .missed].map itemRank ++ List.range' 5 8 ++ [StatusItem.probe].map itemRank ++
      List.range' 14 16 ++ List.range' 30 8 = List.range' 0 38 := by decide
  rw [hfirst, List.range_eq_range']
  exact List.range'_append_1

theorem statusItems_ranked : statusItems.Pairwise (itemRank · < itemRank ·) := by
  rw [← List.pairwise_map, statusItems_ranks]
  exact List.pairwise_lt_range

theorem firstDueCell_eq (w : StatusWriter) :
    (firstDueCell w.cellDue).map (fun p => StatusItem.cell p.1 p.2) =
      ((List.finRange 32).flatMap fun y => (List.finRange 32).map fun x => StatusItem.cell x y).find? (itemDue · w) := by
  rw [firstDueCell, List.find?_flatMap, List.map_findSome?]
  congr 1
  funext y
  rw [List.find?_map, Function.comp_apply, Option.map_map]
  rfl

theorem firstDue_eq (w : StatusWriter) : firstDue w = statusItems.find? (itemDue · w) := by
  rw [firstDue, firstDueCell_eq]
  simp only [statusItems, List.find?_append, List.find?_map, List.find?_cons, itemDue]
  cases w.flagsDue
  case true => rfl
  cases w.captureDue
  case true => rfl
  cases w.lineDue
  case true => rfl
  cases w.syncDue
  case true => rfl
  cases w.missedDue
  case true => rfl
  cases w.probeDue <;> simp [Option.or_assoc]

theorem itemRank_of_firstDue {w : StatusWriter} {j : StatusItem} (h : firstDue w = some j) (hd : itemDue i w = true) : itemRank j ≤ itemRank i := by
  rw [firstDue_eq, List.find?_eq_some_iff_append] at h
  obtain ⟨-, before, after, hlist, hnone⟩ := h
  have hmem : i ∈ before ++ j :: after := hlist ▸ mem_statusItems i
  have hranked := hlist ▸ statusItems_ranked
  rcases List.mem_append.mp hmem with hb | hj
  · have := hnone i hb
    simp [hd] at this
  · rcases List.mem_cons.mp hj with rfl | ha
    · exact Nat.le_refl _
    · exact Nat.le_of_lt (List.rel_of_pairwise_cons (List.pairwise_append.mp hranked).2.1 ha)

theorem itemRank_injective {j : StatusItem} (h : itemRank i = itemRank j) : i = j :=
  List.inj_on_of_nodup_map (statusItems_ranks ▸ List.nodup_range) (mem_statusItems i) (mem_statusItems j) h

theorem firstDue_none_iff {w : StatusWriter} : firstDue w = none ↔ ∀ i, itemDue i w = false := by
  rw [firstDue_eq, List.find?_eq_none]
  exact ⟨fun h i => Bool.eq_false_iff.mpr (h i (mem_statusItems i)), fun h i _ => by simp [h i]⟩

/-- The due item that stands first in the order is the one the writer takes. -/
theorem firstDue_of_least {w : StatusWriter} (hd : itemDue i w = true) (hleast : ∀ j, itemDue j w = true → itemRank i ≤ itemRank j) :
    firstDue w = some i := by
  cases h : firstDue w with
  | none => rw [firstDue_none_iff.mp h i] at hd; cases hd
  | some j => rw [itemRank_injective (Nat.le_antisymm (itemRank_of_firstDue h hd) (hleast j (firstDue_due h)))]

end Sys2Proof.Machine

/-! The Status Writer takes up the first due item (R168, R170). -/

namespace Sys2Proof.Machine

variable {s t u v : State} {i : StatusItem} {c : Cam}

theorem markRecords_same (h : v.cams = s.cams) : markRecords s v = v := by
  have hmarks : (Vector.ofFn fun c => v.stat.recordDue[c] || (reported (s.cam c) != reported (v.cam c))) = v.stat.recordDue := by
    ext c hc
    simp [State.cam, h]
  show v.modStat (fun w => { w with recordDue := _ }) = v
  rw [State.modStat]
  conv_lhs => rw [hmarks]

theorem arbitrate_idle (hp : s.port.cur = none) (hh : s.bus.req = none) (ho : ownGrants s = []) (free : Bool) : arbitrate free s = s := by
  simp only [arbitrate, hp, Option.isSome_none, Bool.false_eq_true, grantHost_none hh, ho, ruleGrant, pickGrant, Option.toList,
    List.append_nil, List.head?_nil, Option.getD_none, ite_self]

theorem seq_takeItem (i : StatusItem) (w : StatusWriter) (c : Cam) : (takeItem i w).seq[c] = if i = .record c then w.seq[c] + 1 else w.seq[c] := by
  cases i with
  | record d =>
    by_cases h : d = c
    · subst h
      simp [takeItem, raiseSeq, markItem]
    · have hne : StatusItem.record d ≠ .record c := fun he => h (StatusItem.record.inj he)
      rw [if_neg hne]
      simp [takeItem, raiseSeq, markItem, Fin.val_ne_of_ne h]
  | _ => rfl

theorem itemTable_nonempty (s : State) (i : StatusItem) : itemTable s i ≠ [] := by
  cases i <;> exact List.cons_ne_nil _ _

/-- Between groups the writer is granted the port for the first word of the first due item. -/
theorem grantStatus_first (hr : s.startup = .running) (hrest : s.stat.rest = []) (hd : firstDue s.stat = some i) :
    ∃ off d rest, itemTable s i = (off, d) :: rest ∧
      grantStatus s = some (grantItemWord i (addrOf s.base (BitVec.ofNat 16 off)) d
        (rest.map fun p => (addrOf s.base (BitVec.ofNat 16 p.1), p.2)) (s.modStat (takeItem i))) := by
  obtain ⟨⟨off, d⟩, rest, htable⟩ := List.exists_cons_of_ne_nil (itemTable_nonempty s i)
  refine ⟨off, d, rest, htable, ?_⟩
  have hwords := itemWords_taken s i
  simp only [grantStatus, hr, ne_eq, not_true_eq_false, if_false, hrest, hd, hwords, htable, List.map_cons, List.map_map, wordAt]
  rfl

theorem grantStatus_idle (hrest : s.stat.rest = []) (hd : firstDue s.stat = none) : grantStatus s = none := by
  unfold grantStatus
  split
  · rfl
  · rw [hrest, hd]

/-- The state the end of an item's last word leaves before the next grant: the port is free and no group stands. -/
def itemEnded (a : Addr) (w : MWord) (s : State) : State := (s.write a w).freePort.modStat fun x => { x with item := none }

theorem itemTable_itemEnded (a : Addr) (w : MWord) (s : State) (i : StatusItem) : itemTable (itemEnded a w s) i = itemTable s i := by
  cases i <;> rfl

theorem itemDue_itemEnded (a : Addr) (w : MWord) (s : State) (i : StatusItem) : itemDue i (itemEnded a w s).stat = itemDue i s.stat := by
  cases i <;> rfl

theorem firstDue_itemEnded (a : Addr) (w : MWord) (s : State) : firstDue (itemEnded a w s).stat = firstDue s.stat := rfl

/-- Settles O43: between groups the writer takes the due item that stands first, and nothing where none is due. -/
theorem statusWriterTakesTheFirstDueItem : Obligations.StatusWriterTakesTheFirstDueItem := by
  intro s j a w hf hrun hp hrest hwo hfl hshot hadopt hreq hqueue
  have hended : statusEnded (s.write a w).freePort = itemEnded a w s := if_pos hrest
  have hwaits : HostWaits (itemEnded a w s) := .of_empty hqueue
  have hgrants (g : Option State) (hg : grantStatus (itemEnded a w s) = g) : ownGrants (itemEnded a w s) = g.toList := by
    have hset : grantSetpoint (itemEnded a w s) = none := grantSetpoint_none hwo hfl
    have hshot' : grantShot (itemEnded a w s) = none := grantShot_none (congrArg ShotEngine.op hshot)
    have hadopt' : grantAdopt (itemEnded a w s) = none := grantAdopt_none hrun hadopt
    rw [ownGrants, hset, hshot', hadopt', hg]
    cases g <;> rfl
  refine ⟨_, exec_statusWriteEnd hp, ?_⟩
  rw [hended]
  refine ⟨settle_put hf hwaits rfl s, settle_settled hwaits { landed_settled a w s with } s, ?_⟩
  rw [settle, settleWith_eq (quiet_of_idle (s := itemEnded a w s) hshot) hwaits, markRecords_same (s := s) (v := itemEnded a w s) rfl]
  refine ⟨fun hnone => ?_, fun i hi hleast => ?_⟩
  · rw [arbitrate_idle (s := itemEnded a w s) rfl hreq
      (hgrants none (grantStatus_idle hrest ((firstDue_itemEnded a w s).trans (firstDue_none_iff.mpr hnone))))]
    exact ⟨rfl, rfl, hrest⟩
  · have hfirst : firstDue (itemEnded a w s).stat = some i := firstDue_of_least hi hleast
    obtain ⟨off, d, rest, htable, hgrant⟩ := grantStatus_first (s := itemEnded a w s) hrun hrest hfirst
    rw [arbitrate_single (s := itemEnded a w s) rfl hreq (hgrants _ hgrant)]
    have hdue (i' : StatusItem) : itemDue i' (takeItem i (itemEnded a w s).stat) = if i' = i then false else itemDue i' s.stat := by
      rw [itemDue_takeItem, itemDue_itemEnded]
    rw [itemTable_itemEnded] at htable
    exact ⟨(hdue i).trans (if_pos rfl), fun i' hne => (hdue i').trans (if_neg hne), fun c => seq_takeItem i (itemEnded a w s).stat c,
      off, d, rest, htable, rfl, rfl, rfl⟩

end Sys2Proof.Machine

/-! The decode of host accesses writes no memory (R151). -/

namespace Sys2Proof.Machine

variable {s t u v : State}

theorem ite_mem {p : Prop} [Decidable p] (h : t.mem = s.mem) (k : u.mem = s.mem) : (if p then t else u).mem = s.mem := by
  split
  · exact h
  · exact k

theorem shotOverlap_mem (off : Nat) (s : State) : (shotOverlap off s).mem = s.mem := by
  unfold shotOverlap
  split
  · rfl
  · refine ite_mem ?_ rfl
    split
    · rfl
    · exact ite_mem (orphanPort_inside ..).mem ((failFetch_inside ..).mem.trans (orphanPort_inside ..).mem)

theorem takeSlot_mem (c : Cam) (a : Axis) (st : Staged) (hi : MWord) (s : State) : (takeSlot c a st hi s).mem = s.mem :=
  ite_mem (s := s) rfl rfl

theorem writeSlot_mem (c : Cam) (a : Axis) (high : Bool) (x : HostAccess) (w : MWord) (s : State) : (writeSlot c a high x w s).mem = s.mem := by
  refine ite_mem rfl (ite_mem ?_ (ite_mem ?_ rfl))
  · split <;> rfl
  · split
    · exact takeSlot_mem ..
    · rfl

theorem regionWrite_mem (off : Nat) (x : HostAccess) (w : MWord) (s : State) : (regionWrite off x w s).mem = s.mem := by
  unfold regionWrite
  cases regionWord off with
  | flags => exact ite_mem (s := s) rfl rfl
  | mask => exact ite_mem (s := s) rfl rfl
  | captureClear => exact ite_mem (s := s) rfl rfl
  | missed => exact ite_mem (s := s) rfl rfl
  | hits n => exact ite_mem (s := s) rfl rfl
  | fenceBound n k => exact ite_mem (s := s) rfl rfl
  | probeHigh =>
    show (writeProbeHigh x w s).mem = s.mem
    unfold writeProbeHigh
    split
    · exact ite_mem (s := s) rfl rfl
    · rfl
  | zoneBound z k => exact takeBound_mem z k w s
  | slot c a high => exact writeSlot_mem c a high x w s
  | shot => exact shotOverlap_mem off s
  | _ => rfl

theorem classify_mem (x : HostAccess) (s : State) : (classify x s).mem = s.mem := by
  unfold classify
  split
  · exact ite_mem rfl rfl
  · split
    · rfl
    · exact regionWrite_mem ..

theorem decodeHost_mem (x : HostAccess) (s : State) : (decodeHost x s).mem = s.mem := by
  unfold decodeHost
  dsimp only
  split
  · rw [classify_mem, testHostWord_mem]
  · split
    · rw [classify_mem, testHostWord_mem]
    · exact (countInterruption_mem _ _).trans (testHostWord_mem x s)

theorem serveHost_mem : ∀ (l : List HostAccess) (s : State), (serveHost l s).mem = s.mem
  | [], _ => rfl
  | x :: rest, s => ite_mem rfl ((serveHost_mem rest _).trans (decodeHost_mem x s))

theorem pumpHost_mem (s : State) : (pumpHost s).mem = s.mem := ite_mem ((serveHost_mem ..).trans rfl) rfl

theorem startRequests_mem (s : State) : (startRequests s).mem = s.mem := by
  obtain ⟨e, he⟩ := startRequests_eq s
  rw [he]

/-- The end of an event writes no memory. -/
theorem settle_mem (old v : State) : (settle old v).mem = v.mem := by
  rw [settle, settleWith, (arbitrate_calm _ _).mem]
  show (startRequests (pumpHost (startRequests v))).mem = v.mem
  rw [startRequests_mem, pumpHost_mem, startRequests_mem]

end Sys2Proof.Machine

/-! What each own requester is granted next (R134, R94, R90, R44, R164). -/

namespace Sys2Proof.Machine

variable {s t u v : State} {c : Cam} {a : Axis} {n off : Nat} {word : BitVec 16} {taken : List (Option (BitVec 16))}

/-! An adoption's next word (R44) -/

theorem maskAxes_axesBefore {m : BitVec 7} (h : inMask m a = true) : (maskAxes m)[axesBefore m a]? = some a := by
  rw [← idxOf_maskAxes h]
  exact List.getElem?_idxOf (mem_maskAxes.mpr h)

theorem axesBefore_lt {m : BitVec 7} (h : inMask m a = true) : axesBefore m a < (maskAxes m).length :=
  (List.getElem?_eq_some_iff.mp (maskAxes_axesBefore h)).1

theorem bankWord_adoptBank (t : List (Option (BitVec 16))) (a : Axis) : bankWord (adoptBank t) a =
    (if (takenWord t (8 + 10 * (maskAxes (adoptMask t)).length)).getLsbD 14 = true then 19 else 3) + 2 * a.val := by
  show bankWord (if (takenWord t (8 + 10 * (maskAxes (adoptMask t)).length)).getLsbD 14 = true then .b else .a) a = _
  split <;> rfl

theorem adoptNext_reads {d : Cam} {next : Offset} (h : AdoptionReads d taken next) : adoptNext d taken = some next := by
  have hctrl : ctrlIndex taken = 8 + 10 * (maskAxes (adoptMask taken)).length := rfl
  unfold adoptNext
  dsimp only
  cases h with
  | general hn => exact if_pos hn
  | axis a i hi ha hn =>
    have hlt := axesBefore_lt ha
    have haxis : (taken.length - 8) / 10 = axesBefore (adoptMask taken) a := by omega
    have hword : (taken.length - 8) % 10 = i := by omega
    rw [if_neg (by omega), if_pos (by omega), haxis, hword, adoptAxes, maskAxes_axesBefore ha]
    rfl
  | control hn => rw [if_neg (by omega), if_neg (by omega), if_pos (by omega)]
  | bank a b hb ha hv hn =>
    have hvalid : adoptValid taken = true := hv
    have haxis : (taken.length - (ctrlIndex taken + 1)) / 2 = axesBefore (adoptMask taken) a := by omega
    have hhalf : (taken.length - (ctrlIndex taken + 1)) % 2 = b := by omega
    rw [if_neg (by omega), if_neg (by omega), if_neg (by omega), if_pos hvalid, haxis, hhalf, adoptAxes, maskAxes_axesBefore ha]
    show some (frameOff d (bankWord (adoptBank taken) a + b)) = _
    rw [bankWord_adoptBank]

/-! The load's next access (R164) -/

theorem loadReadOff_reads (h : LoadReads n off) : loadReadOff n = BitVec.ofNat 16 off := by
  unfold loadReadOff
  rcases h with ⟨hn, rfl⟩ | ⟨k, hk, e, he, rfl, rfl⟩ | ⟨k, hk, e, he, rfl, rfl⟩
  · exact if_pos hn
  · have hentry : (13 + 5 * e + k - 13) / 5 = e := by omega
    have hword : (13 + 5 * e + k - 13) % 5 = k := by omega
    rw [if_neg (by omega), if_pos (by omega), hentry, hword, fenceOff]
    congr 3
    exact congrArg (8 * ·) (Nat.mod_eq_of_lt he)
  · have hentry : (53 + 5 * e + k - 53) / 5 = e := by omega
    have hword : (53 + 5 * e + k - 53) % 5 = k := by omega
    rw [if_neg (by omega), if_neg (by omega), hentry, hword, zoneOff]
    congr 3
    exact congrArg (8 * ·) (Nat.mod_eq_of_lt he)

/-- The state in which the load's write n is formed: the first write of an item takes it up. -/
def loadTaken (n : Nat) (s : State) : State :=
  match loadItem n with
  | some (i, true) => s.modStat (takeItem i)
  | _ => s

theorem grantLoadWrite_eq (n : Nat) (s : State) :
    grantLoadWrite n s =
      grantOwn (.startupWrite n) (addrOf (loadTaken n s).base (loadWord (loadTaken n s) n).1) (some (goodWord (loadWord (loadTaken n s) n).2)) none
        (loadTaken n s) := rfl

theorem loadTaken_base (n : Nat) (s : State) : (loadTaken n s).base = s.base := by
  unfold loadTaken
  split <;> rfl

/-- Taking up an item changes no word of the load but the sequence number of a record. -/
theorem loadWord_takeItem {i : StatusItem} (h : ∀ c, i ≠ .record c) (n : Nat) (s : State) : loadWord (s.modStat (takeItem i)) n = loadWord s n := by
  cases i with
  | record c => exact absurd rfl (h c)
  | _ => rfl

theorem loadWord_taken (h : ∀ c b, loadItem n ≠ some (.record c, b)) (s : State) : loadWord (loadTaken n s) n = loadWord s n := by
  unfold loadTaken
  split
  · next i hi => exact loadWord_takeItem (fun c hc => h c true (hc ▸ hi)) n s
  · rfl

/-- A word of the device block stands in the tables as the block holds it. -/
theorem blockWord_of_table {i : StatusItem} (h : (off, word) ∈ itemTable s i) (hoff : off < 0x80) : blockWord s off = word := by
  cases i with
  | hits m =>
    obtain ⟨rfl, rfl⟩ := Prod.mk.inj (List.mem_singleton.mp h)
    exact blockWord_hits s m
  | lineState =>
    obtain ⟨rfl, rfl⟩ := Prod.mk.inj (List.mem_singleton.mp h)
    exact lineStateWord_bits s.lines
  | capture =>
    simp only [itemTable, List.mem_cons, Prod.mk.injEq, List.not_mem_nil, or_false] at h
    rcases h with ⟨rfl, rfl⟩ | ⟨rfl, rfl⟩ | ⟨rfl, rfl⟩ | ⟨rfl, rfl⟩ | ⟨rfl, rfl⟩ | ⟨rfl, rfl⟩ <;> rfl
  | syncGroup =>
    simp only [itemTable, List.mem_cons, Prod.mk.injEq, List.not_mem_nil, or_false] at h
    rcases h with ⟨rfl, rfl⟩ | ⟨rfl, rfl⟩ | ⟨rfl, rfl⟩ <;> rfl
  | record c =>
    obtain ⟨j, -, hj⟩ := List.mem_map.mp h
    have := (Prod.mk.inj hj).1
    omega
  | flags =>
    obtain ⟨rfl, rfl⟩ := Prod.mk.inj (List.mem_singleton.mp h)
    rfl
  | missed =>
    obtain ⟨rfl, rfl⟩ := Prod.mk.inj (List.mem_singleton.mp h)
    rfl
  | probe =>
    have := (Prod.mk.inj (List.mem_singleton.mp h)).1
    omega
  | zone z =>
    have := (Prod.mk.inj (List.mem_singleton.mp h)).1
    omega
  | cell x y =>
    have := (Prod.mk.inj (List.mem_singleton.mp h)).1
    omega

theorem blockItem_noRecord (off : Nat) (c : Cam) (b : Bool) : blockItem off ≠ some (.record c, b) := by
  unfold blockItem
  repeat' split
  all_goals nofun

theorem loadWord_record (s : State) (c : Cam) {k : Nat} (hk : k < 64) :
    loadWord s (65 + 64 * c.val + k) = (BitVec.ofNat 16 (0x800 + 64 * c.val + k), recordWord s.stat.seq[c] (s.cam c) k) := by
  have hlt := c.isLt
  have hm : (65 + 64 * c.val + k - 65) % 64 = k := by omega
  have hcam : Fin.ofNat 8 ((65 + 64 * c.val + k - 65) / 64) = c := Fin.ext (by show _ % 8 = c.val; omega)
  rw [loadWord, if_neg (by omega), if_neg (by omega), if_pos (by omega)]
  refine (congrArg₂ (fun (d : Cam) j => (recordOff d j, (recordWords s.stat.seq[d] (s.cam d)).getD j 0)) hcam hm).trans ?_
  exact congrArg (Prod.mk _) (recordWords_getD _ _ hk)

theorem loadTaken_record (s : State) (c : Cam) {k : Nat} (hk : k < 64) :
    (loadTaken (65 + 64 * c.val + k) s).stat.seq[c] = (if k = 0 then s.stat.seq[c] + 1 else s.stat.seq[c]) ∧
      (loadTaken (65 + 64 * c.val + k) s).cams = s.cams := by
  rw [loadTaken, loadItem_record c hk]
  by_cases h : k = 0
  · rw [decide_eq_true h, if_pos h]
    exact ⟨(seq_takeItem (.record c) s.stat c).trans (if_pos rfl), rfl⟩
  · rw [decide_eq_false h, if_neg h]
    exact ⟨rfl, rfl⟩

theorem loadWord_zone (s : State) (z : Fin 16) :
    loadWord s (577 + z.val) = (BitVec.ofNat 16 (0x105 + 8 * z.val), zoneCode s.floor.zones[z].status) := by
  have hlt := z.isLt
  have hz : Fin.ofNat 16 (577 + z.val - 577) = z := Fin.ext (by show _ % 16 = z.val; omega)
  have hoff : zoneOff z 5 = BitVec.ofNat 16 (0x105 + 8 * z.val) := congrArg (BitVec.ofNat 16) (by omega)
  rw [loadWord, if_neg (by omega), if_neg (by omega), if_neg (by omega), if_pos (by omega), ← hoff]
  exact congrArg (fun e : Fin 16 => (zoneOff e 5, zoneCode s.floor.zones[e].status)) hz

theorem loadWord_cell (s : State) (x y : Fin 32) :
    loadWord s (593 + 32 * y.val + x.val) = (BitVec.ofNat 16 (0xC00 + 32 * y.val + x.val), cellCode (gridAt s.floor.cells x y)) := by
  have hlt := x.isLt
  have hx : Fin.ofNat 32 ((593 + 32 * y.val + x.val - 593) % 32) = x := Fin.ext (by show _ % 32 = x.val; omega)
  have hy : Fin.ofNat 32 ((593 + 32 * y.val + x.val - 593) / 32) = y := Fin.ext (by show _ % 32 = y.val; omega)
  rw [loadWord, if_neg (by omega), if_neg (by omega), if_neg (by omega), if_neg (by omega)]
  exact congrArg₂ (fun x y : Fin 32 => (cellOff x y, cellCode (gridAt s.floor.cells x y))) hx hy

theorem loadItem_late (h : 577 ≤ n) (c : Cam) (b : Bool) : loadItem n ≠ some (.record c, b) := by
  rw [loadItem, if_neg (by omega), if_neg (by omega), if_neg (by omega)]
  split <;> nofun

theorem loadWord_writes (h : LoadWrites s n off word) : loadWord (loadTaken n s) n = (BitVec.ofNat 16 off, word) := by
  rcases h with ⟨hn, rfl, hw⟩ | ⟨rfl, hw⟩ | ⟨c, k, hk, rfl, rfl, rfl⟩ | ⟨z, rfl, hw⟩ | ⟨x, y, rfl, hw⟩
  · rw [loadWord_taken fun c b => by rw [loadItem, if_pos hn]; exact blockItem_noRecord _ c b]
    rw [loadWord, if_pos hn]
    refine congrArg (Prod.mk _) ?_
    rcases hw with ⟨i, hi⟩ | ⟨rfl, rfl⟩ | ⟨rfl, rfl⟩
    · exact blockWord_of_table hi (by omega)
    · rfl
    · rfl
  · obtain ⟨rfl, rfl⟩ := Prod.mk.inj (List.mem_singleton.mp hw)
    rfl
  · obtain ⟨hseq, hcams⟩ := loadTaken_record s c hk
    rw [loadWord_record _ c hk, hseq, State.cam_congr hcams c]
  · obtain ⟨rfl, rfl⟩ := Prod.mk.inj (List.mem_singleton.mp hw)
    rw [loadWord_taken (loadItem_late (by omega)), loadWord_zone]
  · obtain ⟨rfl, rfl⟩ := Prod.mk.inj (List.mem_singleton.mp hw)
    rw [loadWord_taken (loadItem_late (by omega)), loadWord_cell]

theorem grantLoadWrite_cur (h : LoadWrites s n off word) :
    (grantLoadWrite n s).port.cur =
      some ⟨.startupWrite n, addrOf s.base (BitVec.ofNat 16 off), some (goodWord word), none, true⟩ := by
  rw [grantLoadWrite_eq, loadWord_writes h, loadTaken_base]
  rfl

theorem LoadWrites.congr (h : LoadWrites s n off word) (htable : ∀ i, itemTable t i = itemTable s i) (hmask : t.stat.mask = s.stat.mask)
    (hseq : t.stat.seq = s.stat.seq) (hcams : t.cams = s.cams) : LoadWrites t n off word := by
  simp only [LoadWrites, htable, hmask, hseq, State.cam_congr hcams]
  exact h

end Sys2Proof.Machine

/-! The own requesters in order (R134, R94, R90, R44, R164). -/

namespace Sys2Proof.Machine

variable {s t u v g : State} {c : Cam} {a : Axis} {n off : Nat} {word : BitVec 16} {x : Access}

/-! The grant as the port frees -/

/-- As an access ends with no host access waiting, the port goes to the own requester of the highest rank. -/
theorem settle_frees (hq : ShotQuiet v.shot) (hw : HostWaits v) (hc : v.cams = s.cams) (hp : s.port.cur = some x) (hv : v.port.cur = none)
    (hr : v.bus.req = none) : settle s v = (ownGrants v).head?.getD v := by
  rw [settle, settleWith_eq hq hw, markRecords_same hc, hp]
  simp [arbitrate, hv, ruleGrant, grantHost_none hr]



theorem ownGrants_first_shot (hs : grantSetpoint s = none) (h : grantShot s = some g) : (ownGrants s).head? = some g := by
  simp [ownGrants, hs, h]

theorem ownGrants_first_adopt (hs : grantSetpoint s = none) (ho : grantShot s = none) (h : grantAdopt s = some g) :
    (ownGrants s).head? = some g := by simp [ownGrants, hs, ho, h]

/-! The words of a write-out and of a capture -/

theorem axis_of_half {b h : Nat} (a : Axis) (hh : h < 2) : Fin.ofNat 7 ((b + 2 * a.val + h - b) / 2) = a := by
  have ha := a.isLt
  exact Fin.ext (by show _ % 7 = a.val; omega)

theorem writeOutWord_pair (w : WriteOut) (a : Axis) {h : Nat} (hh : h < 2) :
    writeOutWord w (2 + 2 * a.val + h) = ((if w.bank = .a then 1 else 17) + 2 + 2 * a.val + h, pairHalf w.values[a] h) := by
  have ha := a.isLt
  have hodd : (2 + 2 * a.val + h) % 2 = h % 2 := by omega
  have hstart : bankStart w.bank = if w.bank = .a then 1 else 17 := by cases w.bank <;> rfl
  rw [writeOutWord, if_neg (by omega), if_neg (by omega), if_pos (by omega), hodd, hstart]
  refine (congrArg (fun e : Axis => ((if w.bank = .a then 1 else 17) + (2 + 2 * a.val + h), pairHalf w.values[e] h)) (axis_of_half a hh)).trans ?_
  exact congrArg (·, pairHalf w.values[a] h) (by omega)

theorem captureWord_pair (vs : Positions) (m : BitVec 7) (d r : BitVec 16) (a : Axis) {h : Nat} (hh : h < 2) :
    captureWord vs m d r (2 * a.val + h) = (4 + 2 * a.val + h, pairHalf vs[a] h) := by
  have ha := a.isLt
  have hodd : (2 * a.val + h) % 2 = h % 2 := by omega
  have haxis : Fin.ofNat 7 ((2 * a.val + h) / 2) = a := Fin.ext (by show _ % 7 = a.val; omega)
  rw [captureWord, if_pos (by omega), hodd]
  refine (congrArg (fun e : Axis => (4 + (2 * a.val + h), pairHalf vs[e] h)) haxis).trans ?_
  exact congrArg (·, pairHalf vs[a] h) (by omega)

theorem controlWord_eq (bank : Bank) (frame : BitVec 32) :
    controlWord bank frame = 1#1 ++ (if bank = .a then 0#1 else 1#1) ++ frame.extractLsb' 0 14 := by
  have hassoc (b : BitVec 1) : 1#1 ++ (b ++ frame.extractLsb' 0 14) = 1#1 ++ b ++ frame.extractLsb' 0 14 :=
    (BitVec.append_assoc (x₁ := 1#1) (x₂ := b) (x₃ := frame.extractLsb' 0 14)).symm
  cases bank <;> exact hassoc _

/-! What a read of the load leaves of the other requesters -/

/-- The requests at the port, but for the load's, the port and memory stand. -/
structure AsksAlike (s t : State) : Prop where
  setp : t.setp = s.setp
  shot : t.shot = s.shot
  bus : t.bus = s.bus
  base : t.base = s.base
  port : t.port.cur = s.port.cur
  mem : t.mem = s.mem
  lastOwn : t.port.lastOwn = s.port.lastOwn

theorem asksAlike_ite {p : Prop} [Decidable p] (h : AsksAlike s t) (k : AsksAlike s u) : AsksAlike s (if p then t else u) := by
  split
  · exact h
  · exact k

theorem AsksAlike.refl (s : State) : AsksAlike s s := ⟨rfl, rfl, rfl, rfl, rfl, rfl, rfl⟩

theorem applyZone_asks (z : Fin 16) (s : State) : AsksAlike s (applyZone z s) := by
  refine asksAlike_ite (.refl s) (asksAlike_ite ⟨rfl, rfl, rfl, rfl, rfl, rfl, rfl⟩ ?_)
  constructor <;> simp

theorem takeSetting_asks (n : Nat) (d : BitVec 16) (s : State) : AsksAlike s (takeSetting n d s) := by
  unfold takeSetting
  split <;> exact ⟨rfl, rfl, rfl, rfl, rfl, rfl, rfl⟩

theorem takeLoadRead_asks (n : Nat) (w : MWord) (s : State) : AsksAlike s (takeLoadRead n w s) := by
  refine asksAlike_ite (takeSetting_asks ..) (asksAlike_ite ?_ ?_)
  · exact asksAlike_ite ⟨rfl, rfl, rfl, rfl, rfl, rfl, rfl⟩ (asksAlike_ite ⟨rfl, rfl, rfl, rfl, rfl, rfl, rfl⟩ ⟨rfl, rfl, rfl, rfl, rfl, rfl, rfl⟩)
  · have h := applyZone_asks (Fin.ofNat 16 ((n - 53) / 5)) { s with loadEntry := [] }
    exact asksAlike_ite (asksAlike_ite ⟨rfl, rfl, rfl, rfl, rfl, rfl, rfl⟩ ⟨rfl, rfl, rfl, rfl, rfl, rfl, rfl⟩)
      (asksAlike_ite ⟨h.setp, h.shot, h.bus, h.base, h.port, h.mem, h.lastOwn⟩ ⟨rfl, rfl, rfl, rfl, rfl, rfl, rfl⟩)

theorem readTaken_asks (a : Addr) (w : MWord) (s : State) : AsksAlike s.freePort (readTaken a w s) := asksAlike_ite (.refl _) ⟨rfl, rfl, rfl, rfl, rfl, rfl, rfl⟩

theorem startupRead_asks (n : Nat) (a : Addr) (w : MWord) (s : State) : AsksAlike s.freePort (startupRead n a w s.freePort) := by
  obtain ⟨h1, h2, h3, h4, h5, h6, h7⟩ := takeLoadRead_asks n w (readTaken a w s)
  obtain ⟨k1, k2, k3, k4, k5, k6, k7⟩ := readTaken_asks a w s
  rw [startupRead_eq]
  exact asksAlike_ite ⟨h1.trans k1, h2.trans k2, h3.trans k3, h4.trans k4, h5.trans k5, h6.trans k6, h7.trans k7⟩
    ⟨h1.trans k1, h2.trans k2, h3.trans k3, h4.trans k4, h5.trans k5, h6.trans k6, h7.trans k7⟩

end Sys2Proof.Machine

/-! Settling the order of the own accesses (R161). -/

namespace Sys2Proof.Machine

variable {s t u v g : State} {c : Cam} {a : Axis} {n off : Nat} {word : BitVec 16} {x : Access} {b : Addr} {w : MWord}

/-- A write-out's next word. -/
theorem grantSetpoint_writeOut {w : WriteOut} {rest : List WriteOut} (hw : s.setp.writeOuts = w :: rest) (hf : s.setp.fills = []) :
    grantSetpoint s = some (grantWriteOut w rest s) := by
  have hfill : grantFirstFill s = none := by rw [grantFirstFill, hf]
  simp only [grantSetpoint, hw, hfill]
  exact ite_self _

/-- The state the end of a fill's write leaves before the next grant. -/
def fillEnded (b : Addr) (w : MWord) (s : State) : State := (s.write b w).freePort

theorem itemTable_fillEnded (b : Addr) (w : MWord) (s : State) (i : StatusItem) : itemTable (fillEnded b w s) i = itemTable s i := by
  cases i <;> rfl

theorem writeOut_granted {b : Addr} {m : MWord} (hq : s.setp.fills = []) (w : WriteOut) (rest : List WriteOut) (start : Nat)
    (hw : s.setp.writeOuts = w :: rest) (hn : w.granted ≤ 16) (hstart : start = if w.bank = .a then 1 else 17)
    (ht : t = (ownGrants (fillEnded b m s)).head?.getD (fillEnded b m s)) :
    t.setp.writeOuts = { w with granted := w.granted + 1 } :: rest ∧
        ∃ off word, t.port.cur = some ⟨.writeOut w.cam w.bank (decide (w.granted = 16)), addrOf s.base (frameOff w.cam off),
            some (goodWord word), none, true⟩ ∧
          (w.granted = 0 → off = start ∧ word = w.frame.extractLsb' 0 16) ∧
          (w.granted = 1 → off = start + 1 ∧ word = w.frame.extractLsb' 16 16) ∧
          (∀ (a : Axis) (h : Nat), h < 2 → w.granted = 2 + 2 * a.val + h →
            off = start + 2 + 2 * a.val + h ∧ word = pairHalf w.values[a] h) ∧
          (w.granted = 16 → off = 0 ∧ word = 1#1 ++ (if w.bank = .a then 0#1 else 1#1) ++ w.frame.extractLsb' 0 14) := by
  have hgrant := grantSetpoint_writeOut (s := fillEnded b m s) hw hq
  rw [ownGrants_setpoint hgrant] at ht
  subst ht
  have hlast : decide (16 ≤ w.granted) = decide (w.granted = 16) := decide_eq_decide.mpr (by omega)
  have hbank : bankStart w.bank = start := by rw [hstart]; cases w.bank <;> rfl
  refine ⟨rfl, (writeOutWord w w.granted).1, (writeOutWord w w.granted).2, ?_, fun h => ?_, fun h => ?_, fun a h hh hg => ?_, fun h => ?_⟩
  · rw [← hlast]
    rfl
  · rw [h, ← hbank]
    exact ⟨rfl, rfl⟩
  · rw [h, ← hbank]
    exact ⟨rfl, rfl⟩
  · rw [hg, writeOutWord_pair w a hh, ← hstart]
    exact ⟨rfl, rfl⟩
  · rw [h, ← controlWord_eq]
    exact ⟨rfl, rfl⟩

/-- Word 0 of a record: VALID and the mask. -/
theorem recordHead_eq : ∀ mask : BitVec 7, 0x8000#16 ||| mask.setWidth 16 = 1#1 ++ 0#8 ++ mask := by decide

theorem capture_granted {b : Addr} {m : MWord} (hset : grantSetpoint (fillEnded b m s) = none) (op : ShotOp) (vs : Positions) (mask : BitVec 7)
    (duration ramp : BitVec 16) (hop : s.shot.op = some op) (hwork : op.req.work = .capture vs mask duration ramp)
    (ht : t = (ownGrants (fillEnded b m s)).head?.getD (fillEnded b m s)) :
    ∃ off word, t.port.cur = some ⟨.capture, addrOf s.base (shotOff op.req.cam op.req.shot off), some (goodWord word), none, true⟩ ∧
      (∀ (a : Axis) (h : Nat), h < 2 → op.written = 2 * a.val + h → off = 4 + 2 * a.val + h ∧ word = pairHalf vs[a] h) ∧
      (op.written = 14 → off = 2 ∧ word = ramp) ∧ (op.written = 15 → off = 1 ∧ word = duration) ∧
      (op.written = 16 → off = 0 ∧ word = 1#1 ++ 0#8 ++ mask) := by
  have hop' : (fillEnded b m s).shot.op = some op := hop
  have hgrant : grantShot (fillEnded b m s) = some (grantOwn .capture
      (addrOf s.base (shotOff op.req.cam op.req.shot (captureWord vs mask duration ramp op.written).1))
      (some (goodWord (captureWord vs mask duration ramp op.written).2)) none (fillEnded b m s)) := by
    simp only [grantShot, hop', Option.map_some, hwork]
    rfl
  rw [ownGrants_first_shot hset hgrant] at ht
  subst ht
  refine ⟨_, _, rfl, fun a h hh hg => ?_, fun h => ?_, fun h => ?_, fun h => ?_⟩
  · rw [hg, captureWord_pair _ _ _ _ a hh]
    exact ⟨rfl, rfl⟩
  · rw [h]
    exact ⟨rfl, rfl⟩
  · rw [h]
    exact ⟨rfl, rfl⟩
  · rw [h]
    refine ⟨rfl, ?_⟩
    exact recordHead_eq mask

theorem fetch_granted {b : Addr} {m : MWord} (hset : grantSetpoint (fillEnded b m s) = none) (op : ShotOp) (hop : s.shot.op = some op)
    (hwork : op.req.work = .fetch) (ht : t = (ownGrants (fillEnded b m s)).head?.getD (fillEnded b m s)) :
    t.port.cur =
      some ⟨.fetch, addrOf s.base (shotOff op.req.cam op.req.shot (if op.words.length < 3 then op.words.length else op.words.length + 1)),
        none, none, true⟩ := by
  have hop' : (fillEnded b m s).shot.op = some op := hop
  have hgrant : grantShot (fillEnded b m s) = some (grantOwn .fetch
      (addrOf s.base (shotOff op.req.cam op.req.shot (fetchWord op.words.length))) none none (fillEnded b m s)) := by
    simp only [grantShot, hop', Option.map_some, hwork]
    rfl
  rw [ownGrants_first_shot hset hgrant] at ht
  subst ht
  rfl

/-- Where the rank of the adoption and the load asks, and no rank above it. -/
theorem adopt_granted {b : Addr} {m : MWord} (hset : grantSetpoint (fillEnded b m s) = none) (hop : s.shot.op = none)
    (hgrant : grantAdopt (fillEnded b m s) = some g) (ht : t = (ownGrants (fillEnded b m s)).head?.getD (fillEnded b m s)) : t = g := by
  rw [ownGrants_first_adopt hset (grantShot_none (s := fillEnded b m s) hop) hgrant] at ht
  exact ht

theorem grantAdopt_adoption {rest : List Cam} {ad : Adoption} {next : Offset} (hr : s.startup = .running) (hq : s.adoptQueue = c :: rest)
    (ha : (s.cam c).adoption = some ad) (h : AdoptionReads c ad.taken next) :
    grantAdopt s = some (grantOwn (.adoption c) (addrOf s.base next) none none s) := by
  rw [grantAdopt_running hr]
  simp only [grantAdoption, hq, ha, adoptNext_reads h, Option.map_some]

theorem grantAdopt_reading (hs : s.startup = .reading n) (h : LoadReads n off) :
    grantAdopt s = some (grantOwn (.startupRead n) (addrOf s.base (BitVec.ofNat 16 off)) none none s) := by
  rw [grantAdopt, hs, ← loadReadOff_reads h]

theorem grantAdopt_writing (hs : s.startup = .writing n) : grantAdopt s = some (grantLoadWrite n s) := by rw [grantAdopt, hs]

/-! The load alone at the port -/

theorem LoadWrites.place (h : LoadWrites s n off word) : n < 1617 := by
  rcases h with ⟨h, -⟩ | ⟨h, -⟩ | ⟨c, k, hk, h, -⟩ | ⟨z, h, -⟩ | ⟨x, y, h, -⟩ <;> omega

theorem ownGrants_load (hw : s.setp.writeOuts = []) (hf : s.setp.fills = []) (ho : s.shot.op = none) (hr : s.startup ≠ .running)
    (hg : grantAdopt s = some g) : ownGrants s = [g] := by
  simp [ownGrants, grantSetpoint_none hw hf, grantShot_none ho, grantStatus_none_of_load hr, hg]

theorem loadRead_goes (answer : Option MWord) (n : Nat) {a : Addr} (hp : s.port.cur = some ⟨.startupRead n, a, none, none, true⟩) (ha : LoadAlone s) :
    ∃ t, exec (.startupReadEnd answer) s = .next t ∧ SameMemory s t ∧
      (∀ off : Nat, LoadReads (n + 1) off →
        t.port.cur = some ⟨.startupRead (n + 1), addrOf s.base (BitVec.ofNat 16 off), none, none, true⟩) ∧
      (n = 132 → t.port.cur =
        some ⟨.startupWrite 0, addrOf s.base 0x40, some (goodWord (t.stat.flags.setWidth 16)), none, true⟩) := by
  set v := startupRead n a (answer.getD (s.read a)) s.freePort with hv
  obtain ⟨hreq, hwo, hfl, hshot⟩ := ha
  obtain ⟨hsetp, hshot', hbus, hbase, hport, hmem, -⟩ := startupRead_asks n a (answer.getD (s.read a)) s
  have hcase : v = (if n + 1 < loadReads then { takeLoadRead n (answer.getD (s.read a)) (readTaken a (answer.getD (s.read a)) s) with startup := .reading (n + 1) }
      else beginWrites (takeLoadRead n (answer.getD (s.read a)) (readTaken a (answer.getD (s.read a)) s))) := startupRead_eq ..
  have hrun : v.startup = if n + 1 < loadReads then .reading (n + 1) else .writing 0 := by
    rw [hcase]
    split <;> rfl
  have hwaits : HostWaits v := .of_notRunning (by rw [hrun]; split <;> nofun)
  refine ⟨_, exec_startupReadEnd hp rfl, ?_⟩
  have hsettle (g : State) (hg : grantAdopt (markRecords s v) = some g) : settle s v = g := by
    rw [settle, settleWith_eq (quiet_of_idle (hshot'.trans hshot)) hwaits]
    exact arbitrate_single (s := markRecords s v) hport ((congrArg HostBus.req hbus).trans hreq)
      (ownGrants_load (s := markRecords s v) ((congrArg SetpointWriter.writeOuts hsetp).trans hwo) ((congrArg SetpointWriter.fills hsetp).trans hfl)
        (congrArg ShotEngine.op (hshot'.trans hshot)) (by show v.startup ≠ _; rw [hrun]; split <;> nofun) hg) _
  refine ⟨settle_same hwaits hmem s, fun off hreads => ?_, fun hn => ?_⟩
  · have hlt : n + 1 < loadReads := by
      rw [loadReads]
      rcases hreads with ⟨h, -⟩ | ⟨k, hk, e, he, h, -⟩ | ⟨k, hk, e, he, h, -⟩ <;> omega
    rw [hsettle _ (grantAdopt_reading (s := markRecords s v) (hrun.trans (if_pos hlt)) hreads)]
    show some (Access.mk _ (addrOf v.base _) _ _ _) = _
    rw [hbase]
    rfl
  · have hlast : ¬n + 1 < loadReads := by rw [loadReads]; omega
    rw [hsettle _ (grantAdopt_writing (s := markRecords s v) (hrun.trans (if_neg hlast)))]
    show some (Access.mk _ (addrOf v.base _) _ _ _) = _
    rw [hbase]
    rfl

theorem startupWrite_mem (n : Nat) (s : State) : (startupWrite n s).mem = s.mem := ite_mem rfl rfl

theorem loadWrite_goes (hf : MemoryForm s) (hp : s.port.cur = some ⟨.startupWrite n, b, some w, none, true⟩) (ha : LoadAlone s)
    (hdue : ∀ i : StatusItem, loadItem (n + 1) = some (i, false) → itemDue i s.stat = false) :
    ∃ t, exec .startupWriteEnd s = .next t ∧ MemoryPut s b w t ∧
      ∀ (off : Nat) (word : BitVec 16), LoadWrites s (n + 1) off word →
        t.port.cur = some ⟨.startupWrite (n + 1), addrOf s.base (BitVec.ofNat 16 off), some (goodWord word), none, true⟩ := by
  obtain ⟨hreq, hwo, hfl, hshot⟩ := ha
  refine ⟨_, exec_startupWriteEnd hp, .of_mem hf ?_, fun off word hwrites => ?_⟩
  · exact (settle_mem s _).trans (startupWrite_mem n (s.write b w).freePort)
  · have hlt := hwrites.place
    rw [startupWrite_next (s := (s.write b w).freePort) hlt hdue]
    set v : State := { (s.write b w).freePort with startup := .writing (n + 1) } with hv
    have hwaits : HostWaits v := .of_notRunning nofun
    rw [settle, settleWith_eq (quiet_of_idle (s := v) hshot) hwaits, markRecords_same (s := s) (v := v) rfl,
      arbitrate_single (s := v) rfl hreq
        (ownGrants_load (s := v) hwo hfl (congrArg ShotEngine.op hshot) nofun (grantAdopt_writing (s := v) (n := n + 1) rfl))]
    exact grantLoadWrite_cur (s := v) (hwrites.congr (fun i => by cases i <;> rfl) rfl rfl rfl)

/-- Settles O41: each own requester's next address and word. -/
theorem ownAccessesInOrder : Obligations.OwnAccessesInOrder := by
  refine ⟨fun s d b m hend hreq hfills => ?_, fun s n a answer hp ha => loadRead_goes answer n hp ha, fun s n a w hf hp ha hdue => ?_⟩
  · obtain ⟨hf, hp, hqueue, hquiet⟩ := hend
    have hwaits : HostWaits (fillEnded b m s) := .of_empty hqueue
    refine ⟨_, exec_directFillWriteEnd hp, settle_put hf hwaits rfl s, ?_⟩
    have hframe : settle s (endWrite ⟨.fill d, b, some m, none, true⟩ s).1 = (ownGrants (fillEnded b m s)).head?.getD (fillEnded b m s) :=
      settle_frees (v := fillEnded b m s) hquiet hwaits rfl hp rfl hreq
    generalize settle s (endWrite ⟨.fill d, b, some m, none, true⟩ s).1 = t at hframe
    refine ⟨fun w rest start hw hn hstart => writeOut_granted hfills w rest start hw hn hstart hframe, fun hwo => ?_⟩
    have hset : grantSetpoint (fillEnded b m s) = none := grantSetpoint_none (s := fillEnded b m s) hwo hfills
    refine ⟨fun op hop hwork => fetch_granted hset op hop hwork hframe,
      fun op vs mask duration ramp hop hwork _ => capture_granted hset op vs mask duration ramp hop hwork hframe, fun hop => ⟨?_, ?_, ?_⟩⟩
    · intro c rest ad next hrun hq had hreads
      rw [adopt_granted hset hop (grantAdopt_adoption (s := fillEnded b m s) hrun hq had hreads) hframe]
      rfl
    · intro n off hs hreads
      rw [adopt_granted hset hop (grantAdopt_reading (s := fillEnded b m s) hs hreads) hframe]
      rfl
    · intro n off word hs hwrites
      rw [adopt_granted hset hop (grantAdopt_writing (s := fillEnded b m s) hs) hframe]
      exact grantLoadWrite_cur (s := fillEnded b m s) (hwrites.congr (itemTable_fillEnded b m s) rfl rfl rfl)
  · exact loadWrite_goes hf hp ha hdue

end Sys2Proof.Machine

/-! The arbiter's choice (R161). -/

namespace Sys2Proof.Machine

variable {s t u v m g : State} {c : Cam} {r : Fin 4} {x : Access}

/-! The ranks -/

/-- The grant of an own requester, by its rank. -/
def rankGrant (s : State) : Fin 4 → Option State
  | 0 => grantSetpoint s
  | 1 => grantShot s
  | 2 => grantAdopt s
  | 3 => grantStatus s

theorem ownGrants_ranks (s : State) : ownGrants s = ((List.finRange 4).map (rankGrant s)).filterMap id := rfl

theorem ownGrants_nil (h : ∀ r, rankGrant s r = none) : ownGrants s = [] := by
  rw [ownGrants_ranks, List.filterMap_eq_nil_iff]
  intro o ho
  obtain ⟨r, -, rfl⟩ := List.mem_map.mp ho
  exact h r

theorem ownGrants_rank : ∀ {r : Fin 4}, rankGrant s r = some g → (∀ r' : Fin 4, r' < r → rankGrant s r' = none) → (ownGrants s).head? = some g
  | 0, h, _ => ownGrants_setpoint h
  | 1, h, hn => ownGrants_first_shot (hn 0 (by decide)) h
  | 2, h, hn => ownGrants_first_adopt (hn 0 (by decide)) (hn 1 (by decide)) h
  | 3, h, hn => by
    have h0 : grantSetpoint s = none := hn 0 (by decide)
    have h1 : grantShot s = none := hn 1 (by decide)
    have h2 : grantAdopt s = none := hn 2 (by decide)
    have h3 : grantStatus s = some g := h
    simp [ownGrants, h0, h1, h2, h3]

/-! What asks -/

theorem firstFill_isSome (s : State) : (grantFirstFill s).isSome = true ↔ ∃ c a axes rest, s.setp.fills = ⟨c, a :: axes⟩ :: rest := by
  unfold grantFirstFill
  split
  · next c a axes rest hf => exact ⟨fun _ => ⟨c, a, axes, rest, hf⟩, fun _ => rfl⟩
  · next hne => exact ⟨nofun, fun ⟨c, a, axes, rest, hf⟩ => absurd hf (hne c a axes rest)⟩

theorem setpoint_asks (s : State) : (grantSetpoint s).isSome = true ↔ Asks s 0 := by
  show _ ↔ s.setp.writeOuts ≠ [] ∨ ∃ c a axes rest, s.setp.fills = ⟨c, a :: axes⟩ :: rest
  rw [← firstFill_isSome, grantSetpoint]
  split
  · next w rest hw =>
    have hsome : (if 0 < w.granted then some (grantWriteOut w rest s) else grantFirstFill s <|> some (grantWriteOut w rest s)).isSome = true := by
      split
      · rfl
      · cases grantFirstFill s <;> rfl
    exact ⟨fun _ => .inl (by rw [hw]; nofun), fun _ => hsome⟩
  · next hw => exact ⟨.inr, fun h => h.resolve_left fun h' => h' hw⟩

theorem shot_asks (s : State) : (grantShot s).isSome = true ↔ Asks s 1 := by
  show _ ↔ s.shot.op.isSome = true
  rw [grantShot, Option.isSome_map]

theorem adoption_asks (s : State) : (grantAdoption s).isSome = true ↔
    ∃ c rest ad, s.adoptQueue = c :: rest ∧ (s.cam c).adoption = some ad ∧ (adoptNext c ad.taken).isSome = true := by
  unfold grantAdoption
  split
  · next hq => exact ⟨nofun, fun ⟨c, rest, ad, h, _⟩ => by rw [hq] at h; cases h⟩
  · next c rest hq =>
    split
    · next ha =>
      refine ⟨nofun, fun ⟨c', rest', ad, h, h', _⟩ => ?_⟩
      rw [hq] at h
      obtain ⟨rfl, rfl⟩ := List.cons.inj h
      rw [ha] at h'
      cases h'
    · next ad ha =>
      rw [Option.isSome_map]
      refine ⟨fun h => ⟨c, rest, ad, hq, ha, h⟩, fun ⟨c', rest', ad', h, h', hn⟩ => ?_⟩
      rw [hq] at h
      obtain ⟨rfl, rfl⟩ := List.cons.inj h
      rw [ha] at h'
      cases h'
      exact hn

theorem adopt_asks (s : State) : (grantAdopt s).isSome = true ↔ Asks s 2 := by
  show _ ↔ (∃ n, s.startup = .reading n) ∨ (∃ n, s.startup = .writing n) ∨
    s.startup = .running ∧ ∃ c rest ad, s.adoptQueue = c :: rest ∧ (s.cam c).adoption = some ad ∧ (adoptNext c ad.taken).isSome = true
  rw [← adoption_asks]
  unfold grantAdopt
  split
  · next h => simp [h]
  · next n h => simp [h]
  · next n h => simp [h]
  · next h => simp [h]

theorem status_asks (s : State) : (grantStatus s).isSome = true ↔ Asks s 3 := by
  show _ ↔ s.startup = .running ∧ (s.stat.rest ≠ [] ∧ s.stat.item.isSome = true ∨ ∃ i, itemDue i s.stat = true)
  have hdue : (∃ i, itemDue i s.stat = true) ↔ (firstDue s.stat).isSome = true := by
    rw [← not_iff_not, Bool.not_eq_true, Option.isSome_eq_false_iff, Option.isNone_iff_eq_none, firstDue_none_iff]
    simp
  rw [hdue]
  unfold grantStatus
  split
  · next h => simp [h]
  · next h =>
    have hrun : s.startup = .running := not_not.mp h
    split
    · next a d rest i hrest hitem => simp [hrun, hrest, hitem]
    · next hne =>
      have hno : ¬(s.stat.rest ≠ [] ∧ s.stat.item.isSome = true) := fun ⟨h1, h2⟩ => by
        obtain ⟨⟨a, d⟩, rest, hrest⟩ := List.exists_cons_of_ne_nil h1
        obtain ⟨i, hi⟩ := Option.isSome_iff_exists.mp h2
        exact hne a d rest i hrest hi
      split
      · next hf => simp [hf, hno]
      · next i hf =>
        obtain ⟨p, rest, hp⟩ := List.exists_cons_of_ne_nil (itemTable_nonempty s i)
        have hwords : (itemWords (s.modStat (takeItem i)) i).map (fun p => (addrOf s.base p.1, p.2)) ≠ [] := by
          rw [itemWords_taken, hp]
          nofun
        simp only [hrun, hf, true_and, Option.isSome_some, or_true, iff_true]
        split
        · next h => exact absurd h hwords
        · rfl

theorem rank_asks (s : State) : ∀ r : Fin 4, (rankGrant s r).isSome = true ↔ Asks s r
  | 0 => setpoint_asks s
  | 1 => shot_asks s
  | 2 => adopt_asks s
  | 3 => status_asks s

theorem rank_none (h : ¬Asks s r) : rankGrant s r = none := by
  rw [← rank_asks] at h
  exact Option.not_isSome_iff_eq_none.mp h

/-! What a grant leaves -/

/-- The port holds an access of the rank, and the host waits on. -/
structure GrantedTo (s g : State) (r : Fin 4) : Prop where
  holder : ∃ x, g.port.cur = some x ∧ ownRank x.owner = some r
  own : g.port.lastOwn = true
  bus : g.bus = s.bus

theorem grantOwn_to {o : Owner} {a : Addr} {w second : Option MWord} (h : ownRank o = some r) (hb : v.bus = s.bus) :
    GrantedTo s (grantOwn o a w second v) r := ⟨⟨_, rfl, h⟩, rfl, hb⟩

theorem firstFill_to (h : grantFirstFill s = some g) : GrantedTo s g 0 := by
  unfold grantFirstFill at h
  split at h
  · cases h
    exact grantOwn_to rfl rfl
  · cases h

theorem setpoint_to (h : grantSetpoint s = some g) : GrantedTo s g 0 := by
  unfold grantSetpoint at h
  split at h
  · next w rest hw =>
    have hwrite : GrantedTo s (grantWriteOut w rest s) 0 := grantOwn_to rfl rfl
    split at h
    · cases h
      exact hwrite
    · cases hf : grantFirstFill s with
      | none =>
        rw [hf] at h
        cases h
        exact hwrite
      | some f =>
        rw [hf] at h
        cases h
        exact firstFill_to hf
  · exact firstFill_to h

theorem shot_to (h : grantShot s = some g) : GrantedTo s g 1 := by
  obtain ⟨op, -, rfl⟩ := Option.map_eq_some_iff.mp h
  split
  · exact grantOwn_to rfl rfl
  · exact grantOwn_to rfl rfl

theorem adopt_to (h : grantAdopt s = some g) : GrantedTo s g 2 := by
  unfold grantAdopt at h
  split at h
  · cases h
  · cases h
    exact grantOwn_to rfl rfl
  · next n _ =>
    cases h
    rw [grantLoadWrite_eq]
    refine grantOwn_to rfl ?_
    unfold loadTaken
    split <;> rfl
  · unfold grantAdoption at h
    split at h
    · cases h
    · split at h
      · cases h
      · obtain ⟨off, -, rfl⟩ := Option.map_eq_some_iff.mp h
        exact grantOwn_to rfl rfl

theorem status_to (h : grantStatus s = some g) : GrantedTo s g 3 := by
  unfold grantStatus at h
  split at h
  · cases h
  · split at h
    · cases h
      exact grantOwn_to rfl rfl
    · split at h
      · cases h
      · dsimp only at h
        split at h
        · cases h
        · cases h
          exact grantOwn_to rfl rfl

theorem rank_to : ∀ {r : Fin 4}, rankGrant s r = some g → GrantedTo s g r
  | 0, h => setpoint_to h
  | 1, h => shot_to h
  | 2, h => adopt_to h
  | 3, h => status_to h

end Sys2Proof.Machine

/-! The arbiter's choice at the ends of accesses (R161; log 32). -/

namespace Sys2Proof.Machine

variable {s t u v m g : State} {c : Cam} {r : Fin 4} {x : Access} {i : Instr}

/-- The choice of the rule: the grant of t follows the requests of u, the last grant being that of s (R161). -/
def RuleChooses (s u t : State) : Prop :=
  (∀ x : Access, u.bus.req = some x → s.port.lastOwn = true ∨ (∀ r : Fin 4, ¬Asks u r) →
    t.port.cur = some x ∧ t.bus.req = none ∧ t.port.lastOwn = false) ∧
  (∀ r : Fin 4, u.bus.req = none ∨ s.port.lastOwn = false → Asks u r → (∀ r' : Fin 4, r' < r → ¬Asks u r') →
    t.bus.req = u.bus.req ∧ t.port.lastOwn = true ∧ ∃ x, t.port.cur = some x ∧ ownRank x.owner = some r) ∧
  (u.bus.req = none → (∀ r : Fin 4, ¬Asks u r) → t.port.cur = none)

theorem ruleGrant_of_req (h : s.bus.req = some x) :
    ruleGrant s =
      if s.port.lastOwn then { s with bus := { s.bus with req := none }, port := { s.port with cur := some x, lastOwn := false } }
      else (ownGrants s).head?.getD { s with bus := { s.bus with req := none }, port := { s.port with cur := some x, lastOwn := false } } := by
  have hhost : grantHost s = some { s with bus := { s.bus with req := none }, port := { s.port with cur := some x, lastOwn := false } } := by
    rw [grantHost, h]
    rfl
  rw [ruleGrant, hhost]

theorem ruleGrant_chooses (hp : s.port.cur = none) : RuleChooses s s (ruleGrant s) := by
  have hnone (h : ∀ r : Fin 4, ¬Asks s r) : ownGrants s = [] := ownGrants_nil fun r => rank_none (h r)
  refine ⟨fun x hx h => ?_, fun r hfree hr hlow => ?_, fun hreq h => ?_⟩
  · rw [ruleGrant_of_req hx]
    rcases h with h | h
    · rw [if_pos h]
      exact ⟨rfl, rfl, rfl⟩
    · rw [hnone h]
      exact ⟨by split <;> rfl, by split <;> rfl, by split <;> rfl⟩
  · obtain ⟨g, hg⟩ := Option.isSome_iff_exists.mp ((rank_asks s r).mpr hr)
    have hhead := ownGrants_rank hg fun r' h' => rank_none (hlow r' h')
    have hrule : ruleGrant s = g := by
      cases hq : s.bus.req with
      | none => simp only [ruleGrant, grantHost_none hq, hhead, Option.getD_some]
      | some x =>
        rw [ruleGrant_of_req hq, if_neg (by rw [hfree.resolve_left (by rw [hq]; nofun)]; nofun), hhead]
        rfl
    obtain ⟨hholder, hown, hbus⟩ := rank_to hg
    rw [hrule]
    exact ⟨congrArg HostBus.req hbus, hown, hholder⟩
  · rw [ruleGrant, grantHost_none hreq, hnone h]
    exact hp

theorem RuleChooses.congr (h : RuleChooses m m t) (hl : m.port.lastOwn = s.port.lastOwn) (hr : m.bus.req = u.bus.req)
    (ha : ∀ r, Asks m r ↔ Asks u r) : RuleChooses s u t := by
  simp only [RuleChooses, hl, hr, ha] at h
  exact h

/-- What an own requester asks for is in these parts of the state. -/
theorem asks_congr (hsetp : t.setp = s.setp) (hshot : t.shot.op.isSome = s.shot.op.isSome) (hstart : t.startup = s.startup)
    (hadopt : t.adoptQueue = s.adoptQueue) (hcams : ∀ c, (t.cam c).adoption = (s.cam c).adoption)
    (hstat : Asks t 3 ↔ Asks s 3) : ∀ r, Asks t r ↔ Asks s r
  | 0 => by simp only [Asks, hsetp]
  | 1 => by simp only [Asks, hshot]
  | 2 => by simp only [Asks, hstart, hadopt, hcams]
  | 3 => hstat

/-- Until the load has ended neither the adoption nor the Status Writer asks (R151, R164). -/
theorem asks_loading (hs : s.startup ≠ .running) (ht : t.startup ≠ .running) (hi : s.startup ≠ .inReset) (hi' : t.startup ≠ .inReset)
    (hsetp : t.setp = s.setp) (hshot : t.shot.op.isSome = s.shot.op.isSome) : ∀ r, Asks t r ↔ Asks s r
  | 0 => by simp only [Asks, hsetp]
  | 1 => by simp only [Asks, hshot]
  | 2 => by
    have hload {y : State} (h : y.startup ≠ .running) (h' : y.startup ≠ .inReset) : Asks y 2 := by
      cases hy : y.startup with
      | inReset => exact absurd hy h'
      | reading n => exact .inl ⟨n, hy⟩
      | writing n => exact .inr (.inl ⟨n, hy⟩)
      | running => exact absurd hy h
    exact ⟨fun _ => hload hs hi, fun _ => hload ht hi'⟩
  | 3 => by simp only [Asks, hs, ht, false_and]

/-- The end of an event at which the port becomes free: the rule chooses among the requests then made. -/
theorem settle_chooses (hq : ShotQuiet v.shot) (hw : HostWaits v) (hp : s.port.cur = some x) (hv : v.port.cur = none)
    (hl : v.port.lastOwn = s.port.lastOwn) (hr : v.bus.req = u.bus.req) (ha : ∀ r, Asks (markRecords s v) r ↔ Asks u r) :
    RuleChooses s u (settle s v) := by
  have hcur : (markRecords s v).port.cur = none := hv
  rw [settle, settleWith_eq hq hw, hp, arbitrate, hcur]
  exact (ruleGrant_chooses hcur).congr hl hr ha

/-- Marks of cameras that report what they did change nothing. -/
theorem markRecords_quiet (h : ∀ c, reported (v.cam c) = reported (s.cam c)) : markRecords s v = v := by
  have hmarks : (Vector.ofFn fun c => v.stat.recordDue[c] || (reported (s.cam c) != reported (v.cam c))) = v.stat.recordDue := by
    ext c hc
    have hsame := h ⟨c, hc⟩
    simp [hsame]
  show v.modStat (fun w => { w with recordDue := _ }) = v
  rw [State.modStat]
  conv_lhs => rw [hmarks]

/-- An end that leaves the reports of all cameras alone. -/
theorem settle_chooses_quiet (hq : ShotQuiet v.shot) (hb : v.bus.queue = []) (hp : s.port.cur = some x) (hv : v.port.cur = none)
    (hl : v.port.lastOwn = s.port.lastOwn) (hc : ∀ c, reported (v.cam c) = reported (s.cam c)) (hr : v.bus.req = u.bus.req)
    (ha : ∀ r, Asks v r ↔ Asks u r) : RuleChooses s u (settle s v) :=
  settle_chooses hq (.of_empty hb) hp hv hl hr (by rw [markRecords_quiet hc]; exact ha)

variable {a : Addr} {w : MWord} {o : ShotOp} {bank : Bank} {n : Nat} {ad : Adoption} {answer : Option MWord}

theorem fillEnd_chooses (hp : s.port.cur = some ⟨.fill c, a, some w, none, true⟩) (hb : s.bus.queue = []) (hq : ShotQuiet s.shot) :
    ∃ t, exec .directFillWriteEnd s = .next t ∧ RuleChooses s s t :=
  ⟨_, exec_directFillWriteEnd hp, settle_chooses_quiet (v := fillEnded a w s) hq hb hp rfl rfl (fun _ => rfl) rfl
    (asks_congr rfl rfl rfl rfl (fun _ => rfl) Iff.rfl)⟩

theorem writeOutEnd_chooses (hp : s.port.cur = some ⟨.writeOut c bank false, a, some w, none, true⟩) (hb : s.bus.queue = [])
    (hq : ShotQuiet s.shot) : ∃ t, exec .writeOutWriteEnd s = .next t ∧ RuleChooses s s t :=
  ⟨_, exec_writeOutWriteEnd hp, settle_chooses_quiet (v := (s.write a w).freePort) hq hb hp rfl rfl (fun _ => rfl) rfl
    (asks_congr rfl rfl rfl rfl (fun _ => rfl) Iff.rfl)⟩

theorem controlEnd_chooses (hp : s.port.cur = some ⟨.writeOut c bank true, a, some w, none, true⟩) (hb : s.bus.queue = [])
    (hq : ShotQuiet s.shot) :
    ∃ t, exec .writeOutWriteEnd s = .next t ∧
      RuleChooses s { s with setp := { s.setp with writeOuts := s.setp.writeOuts.filter (·.cam != c) } } t := by
  have hcam (d : Cam) : ∃ k, ((dropWriteOut c (s.write a w).freePort).modCam c fun k => { k with activeBank := bank }).cam d =
      { s.cam d with activeBank := k } := by
    by_cases h : d = c
    · subst h
      exact ⟨bank, cam_modCam_self ..⟩
    · exact ⟨(s.cam d).activeBank, cam_modCam_other h ..⟩
  refine ⟨_, exec_writeOutWriteEnd hp, ?_⟩
  refine settle_chooses_quiet (v := (dropWriteOut c (s.write a w).freePort).modCam c fun k => { k with activeBank := bank }) hq hb hp rfl rfl
    (fun d => ?_) rfl (asks_congr rfl rfl rfl rfl (fun d => ?_) Iff.rfl)
  · obtain ⟨k, hd⟩ := hcam d
    rw [hd]
    rfl
  · obtain ⟨k, hd⟩ := hcam d
    rw [hd]
    rfl

theorem captureWrite_counts (hop : v.shot.op = some o) (h : o.written < 16) :
    captureWrite v = v.modShot fun e => { e with op := some { o with written := o.written + 1 } } := by
  have hlt : o.written + 1 < 17 := by omega
  rw [captureWrite, hop]
  exact if_pos hlt

theorem captureEnd_chooses (hp : s.port.cur = some ⟨.capture, a, some w, none, true⟩) (hb : s.bus.queue = []) (hq : ShotQuiet s.shot)
    (hop : s.shot.op = some o) (h : o.written < 16) : ∃ t, exec .captureWriteEnd s = .next t ∧ RuleChooses s s t := by
  refine ⟨_, exec_captureWriteEnd hp, ?_⟩
  rw [captureWrite_counts (v := (s.write a w).freePort) hop h]
  exact settle_chooses_quiet (v := (s.write a w).freePort.modShot fun e => { e with op := some { o with written := o.written + 1 } })
    ⟨hq.1, nofun⟩ hb hp rfl rfl (fun _ => rfl) rfl (asks_congr rfl (by rw [hop]; rfl) rfl rfl (fun _ => rfl) Iff.rfl)

theorem fetchEnd_chooses (hp : s.port.cur = some ⟨.fetch, a, none, none, true⟩) (hb : s.bus.queue = []) (hq : ShotQuiet s.shot)
    (hop : s.shot.op = some o) (h : o.words.length < 16) (hw : wordOk w = true) (hv : o.words = [] → w.data.getLsbD 15 = true) :
    ∃ t, exec (.fetchReadEnd (some w)) s = .next t ∧ RuleChooses s s t := by
  have hvalid : o.words ≠ [] ∨ w.data.getLsbD 15 = true := (em (o.words = [])).elim (fun he => .inr (hv he)) .inl
  have hlt : (o.words ++ [w.data]).length < 17 := by
    rw [List.length_append]
    exact Nat.succ_lt_succ h
  refine ⟨_, exec_fetchReadEnd hp, ?_⟩
  rw [Option.getD_some, fetchRead_good hop hw hvalid, if_pos hlt]
  exact settle_chooses_quiet (v := s.freePort.modShot fun e => { e with op := some { o with words := o.words ++ [w.data] } })
    ⟨hq.1, nofun⟩ hb hp rfl rfl (fun _ => rfl) rfl (asks_congr rfl (by rw [hop]; rfl) rfl rfl (fun _ => rfl) Iff.rfl)

theorem adoptionEnd_chooses (hp : s.port.cur = some ⟨.adoption c, a, none, none, true⟩) (hb : s.bus.queue = []) (hq : ShotQuiet s.shot)
    (had : (s.cam c).adoption = some ad) (hw : wordOk w = true) (hn : (adoptNext c (ad.taken ++ [some w.data])).isSome = true) :
    ∃ t, exec (.adoptionReadEnd (some w)) s = .next t ∧
      RuleChooses s (withCam c { s.cam c with adoption := some { ad with taken := ad.taken ++ [some w.data] } } s) t := by
  have htaken : adoptionTaken w ad = { ad with taken := ad.taken ++ [some w.data] } := by
    rw [adoptionTaken, hw]
    simp
  have hgone : adoptionGone c a w ad s = s.freePort.modCam c fun k => { k with adoption := some { ad with taken := ad.taken ++ [some w.data] } } := by
    rw [adoptionGone, htaken, readTaken, if_pos hw]
  refine ⟨_, exec_adoptionReadEnd hp, ?_⟩
  rw [Option.getD_some, adoptionRead_goes had (by rw [htaken]; exact hn), hgone]
  refine settle_chooses_quiet
    (v := s.freePort.modCam c fun k => { k with adoption := some { ad with taken := ad.taken ++ [some w.data] } }) hq hb hp rfl rfl (fun d => ?_) rfl
    (asks_congr rfl rfl rfl rfl (fun _ => rfl) Iff.rfl)
  by_cases h : d = c
  · subst h
    rw [cam_modCam_self]
    rfl
  · rw [cam_modCam_other h ..]
    rfl

theorem loadReadEnd_chooses (hp : s.port.cur = some ⟨.startupRead n, a, none, none, true⟩) (hb : s.bus.queue = []) (hq : ShotQuiet s.shot)
    (hn : n < 133) : ∃ t, exec (.startupReadEnd (some w)) s = .next t ∧
      RuleChooses s { s with startup := if n = 132 then .writing 0 else .reading (n + 1) } t := by
  obtain ⟨hsetp, hshot, hbus, -, hport, -, hlast⟩ := startupRead_asks n a w s
  have hrun : (startupRead n a w s.freePort).startup = if n = 132 then .writing 0 else .reading (n + 1) := by
    rw [startupRead_eq]
    by_cases h : n = 132
    · rw [if_neg (by rw [loadReads]; omega), if_pos h]
      rfl
    · rw [if_pos (by rw [loadReads]; omega), if_neg h]
  refine ⟨_, exec_startupReadEnd hp rfl, ?_⟩
  rw [Option.getD_some]
  generalize startupRead n a w s.freePort = v at hsetp hshot hbus hport hlast hrun
  have hqueue : v.bus.queue = [] := (congrArg HostBus.queue hbus).trans hb
  have hnot : (if n = 132 then Startup.writing 0 else .reading (n + 1)) ≠ .running := by split <;> nofun
  have hout : (if n = 132 then Startup.writing 0 else .reading (n + 1)) ≠ .inReset := by split <;> nofun
  exact settle_chooses (by rw [hshot]; exact hq) (.of_empty hqueue) hp hport hlast (congrArg HostBus.req hbus)
    (asks_loading hnot (by rw [← hrun] at hnot; exact hnot) hout (by rw [← hrun] at hout; exact hout) hsetp
      (congrArg (fun e : ShotEngine => e.op.isSome) hshot))

theorem nextLoadWrite_le (x : StatusWriter) : ∀ fuel n, nextLoadWrite x fuel n ≤ n + fuel
  | 0, n => Nat.le_refl n
  | fuel + 1, n => by
    have ih := nextLoadWrite_le x fuel (n + 1)
    rw [nextLoadWrite]
    split
    · split <;> omega
    · omega

/-- After every write but the last another follows. -/
theorem nextLoadWrite_ends (x : StatusWriter) (hn : n < 1616) : nextLoadWrite x 63 (n + 1) < 1617 := by
  by_cases h : n + 1 < 593
  · have := nextLoadWrite_le x 63 (n + 1)
    omega
  · rw [nextLoadWrite_here 63 fun i hi => absurd hi (loadItem_past (by omega) i)]
    omega

theorem loadWriteEnd_chooses (hp : s.port.cur = some ⟨.startupWrite n, a, some w, none, true⟩) (hb : s.bus.queue = []) (hq : ShotQuiet s.shot)
    (hn : n < 1616) : ∃ t, exec .startupWriteEnd s = .next t ∧ RuleChooses s { s with startup := .writing (n + 1) } t := by
  refine ⟨_, exec_startupWriteEnd hp, ?_⟩
  rw [startupWrite_goes (x := (s.write a w).freePort) rfl (nextLoadWrite_ends _ hn)]
  set m := nextLoadWrite (s.write a w).freePort.stat 63 (n + 1)
  exact settle_chooses_quiet (v := { (s.write a w).freePort with startup := .writing m }) hq hb hp rfl rfl (fun _ => rfl) rfl
    (asks_loading nofun nofun nofun nofun rfl rfl)

theorem statusEnd_chooses {j : StatusItem} (hp : s.port.cur = some ⟨.status j, a, some w, none, true⟩) (hb : s.bus.queue = [])
    (hq : ShotQuiet s.shot) : ∃ t, exec .statusWriteEnd s = .next t ∧ RuleChooses s s t := by
  refine ⟨_, exec_statusWriteEnd hp, ?_⟩
  unfold statusEnded
  split
  · next hrest =>
    have hrest' : s.stat.rest = [] := hrest
    refine settle_chooses_quiet (v := itemEnded a w s) hq hb hp rfl rfl (fun _ => rfl) rfl
      (asks_congr rfl rfl rfl rfl (fun _ => rfl) ?_)
    have hno (y : State) (h : y.stat.rest = []) : Asks y 3 ↔ y.startup = .running ∧ ∃ i, itemDue i y.stat = true := by
      simp [Asks, h]
    rw [hno s hrest', hno (itemEnded a w s) hrest']
    simp only [itemDue_itemEnded]
    rfl
  · exact settle_chooses_quiet (v := (s.write a w).freePort) hq hb hp rfl rfl (fun _ => rfl) rfl
      (asks_congr rfl rfl rfl rfl (fun _ => rfl) Iff.rfl)

end Sys2Proof.Machine

/-! The arbiter's choice at the ends of host accesses, and for an access decoded at a free port (R161; log 10). -/

namespace Sys2Proof.Machine

variable {s t u v g : State} {r : Fin 4} {x : Access} {a : Addr} {w : MWord} {answer : Option MWord} {off : Offset}

theorem hostWriteEnd_chooses (hp : s.port.cur = some ⟨.host .nothing false, a, some w, none, true⟩) (hl : LastHost s) (hq : ShotQuiet s.shot) :
    ∃ t, exec (.hostAccessEnd answer) s = .next t ∧ RuleChooses s s t := by
  refine ⟨_, exec_hostAccessEnd hp, ?_⟩
  rw [endHostAccess_write answer hp]
  exact settle_chooses_quiet (v := (s.write a w).freePort.endHost a true false w) hq hl.queue hp rfl rfl (fun _ => rfl) rfl
    (asks_congr rfl rfl rfl rfl (fun _ => rfl) Iff.rfl)

theorem hostReadEnd_chooses (hp : s.port.cur = some ⟨.host .nothing false, a, none, none, true⟩) (hl : LastHost s) (hq : ShotQuiet s.shot)
    (hw : wordOk w = true) : ∃ t, exec (.hostAccessEnd (some w)) s = .next t ∧ RuleChooses s s t := by
  refine ⟨_, exec_hostAccessEnd hp, ?_⟩
  rw [endHostAccess_read (w := w) hp rfl, if_pos hw]
  exact settle_chooses_quiet (v := s.freePort.endHost a false false w) hq hl.queue hp rfl rfl (fun _ => rfl) rfl
    (asks_congr rfl rfl rfl rfl (fun _ => rfl) Iff.rfl)

/-- The access a host read asks for (R151). -/
def readAccess (s : State) (off : Offset) : Access := ⟨.host .nothing false, addrOf s.base off, none, none, true⟩

/-- A read that was presented and waited is decoded as the host becomes free. -/
theorem pumpHost_read (hrun : v.startup = .running) (hqueue : v.bus.queue = [⟨addrOf v.base off, none⟩]) (hfree : hostBusy v = false)
    (hst : v.bus.staging = none) : pumpHost v = v.modBus fun b => { b with queue := [], req := some (readAccess v off) } := by
  have hbusy : hostBusy (v.modBus fun b => { b with queue := [] }) = false := hfree
  have hst' : (v.modBus fun b => { b with queue := [] }).bus.staging = none := hst
  rw [pumpHost, if_pos hrun, hqueue, serveHost, if_neg (by rw [hbusy]; nofun)]
  simp only [serveHost, decodeHost, testHostWord, hst', classify]
  rw [show (v.modBus fun b => { b with queue := [] }).base = v.base from rfl, offsetOf_addrOf]
  rfl

theorem startRequests_of_quiet (hq : ShotQuiet v.shot) : startRequests v = v := by
  obtain ⟨e, he⟩ := startRequests_eq v
  have hshot := startRequests_quiet hq
  rw [he] at hshot ⊢
  simp only at hshot
  subst hshot
  rfl

theorem settle_eq_pumped (hq : ShotQuiet v.shot) (hp : ShotQuiet (pumpHost v).shot) (old : State) :
    settle old v = arbitrate old.port.cur.isNone (markRecords old (pumpHost v)) := by
  rw [settle, settleWith, startRequests_of_quiet hq, startRequests_of_quiet hp]

theorem hostNext_chooses (hrun : s.startup = .running) (hp : s.port.cur = some ⟨.host .nothing false, a, some w, none, true⟩)
    (hqueue : s.bus.queue = [⟨addrOf s.base off, none⟩]) (hheld : s.bus.held = none) (hreq : s.bus.req = none) (hst : s.bus.staging = none)
    (hq : ShotQuiet s.shot) :
    ∃ t, exec (.hostAccessEnd answer) s = .next t ∧ RuleChooses s { s with bus := { s.bus with req := some (readAccess s off) } } t := by
  refine ⟨_, exec_hostAccessEnd hp, ?_⟩
  rw [endHostAccess_write answer hp]
  set v := hostDone s.port.lastOwn a w s with hv
  show RuleChooses s _ (settle s v)
  have hbusy : hostBusy v = false := by
    show (s.bus.held.isSome || s.bus.req.isSome || false) = false
    rw [hheld, hreq]
    rfl
  have hpump := pumpHost_read (v := v) hrun hqueue hbusy hst
  rw [settle_eq_pumped (v := v) hq (by rw [hpump]; exact hq), hpump, markRecords_same (s := s) (v := v.modBus _) rfl, hp]
  exact (ruleGrant_chooses (s := v.modBus fun b => { b with queue := [], req := some (readAccess v off) }) rfl).congr rfl rfl
    (asks_congr rfl rfl rfl rfl (fun _ => rfl) Iff.rfl)

theorem portFrees_chooses {i : Instr} (h : PortFrees s i u) : ∃ t, exec i s = .next t ∧ RuleChooses s u t := by
  cases h with
  | fill c a w hp hb hq => exact fillEnd_chooses hp hb hq
  | writeOut c k a w hp hb hq => exact writeOutEnd_chooses hp hb hq
  | control c k a w hp hb hq => exact controlEnd_chooses hp hb hq
  | capture o a w hp hb hq hop h => exact captureEnd_chooses hp hb hq hop h
  | fetch o a w hp hb hq hop h hw hv => exact fetchEnd_chooses hp hb hq hop h hw hv
  | adoption c a w ad hp hb hq had hw hn => exact adoptionEnd_chooses hp hb hq had hw hn
  | loadRead n a w hn hp hb hq => exact loadReadEnd_chooses hp hb hq hn
  | loadWrite n a w hn hp hb hq => exact loadWriteEnd_chooses hp hb hq hn
  | status i a w hp hb hq => exact statusEnd_chooses hp hb hq
  | hostWrite a w answer hp hl hq => exact hostWriteEnd_chooses hp hl hq
  | hostRead a w hp hl hq hw => exact hostReadEnd_chooses hp hl hq hw
  | hostNext a w answer off hrun hp hqueue hheld hreq hst hq => exact hostNext_chooses hrun hp hqueue hheld hreq hst hq

/-! A host access decoded at a free port -/

theorem pickGrant_cur {l : List State} (hne : l ≠ []) (h : ∀ g ∈ l, g.port.cur.isSome = true) (s : State) :
    (pickGrant s l).port.cur.isSome = true := by
  unfold pickGrant
  split
  · exact absurd rfl hne
  · exact h _ List.mem_cons_self
  · have hpos := List.length_pos_iff.mpr hne
    dsimp only
    rw [List.getD_eq_getElem _ _ (Nat.mod_lt _ hpos)]
    exact h _ (List.getElem_mem _)

theorem ownGrants_cur (h : g ∈ ownGrants s) : g.port.cur.isSome = true := by
  rw [ownGrants_ranks, List.mem_filterMap] at h
  obtain ⟨o, ho, hg⟩ := h
  obtain ⟨r, -, rfl⟩ := List.mem_map.mp ho
  obtain ⟨⟨x, hx, -⟩, -, -⟩ := rank_to (r := r) hg
  rw [hx]
  rfl

/-- Settles O42: the rule's choice at each end, and the grant of an access decoded at a free port. -/
theorem arbiterChooses : Obligations.ArbiterChooses := by
  refine ⟨fun s u i h => portFrees_chooses h, fun s off hr hp hq => ⟨_, rfl, ?_⟩⟩
  set v := s.modBus fun b => { b with req := some (readAccess s off) } with hv
  have hpresent : present ⟨addrOf s.base off, none⟩ s = v := by
    rw [present_classify hr, classify, testHostWord_good rfl, offsetOf_addrOf]
    rfl
  have hwaits : HostWaits v := .of_empty hr.queue
  have hhost : grantHost v = some { v with bus := { v.bus with req := none }, port := { v.port with cur := some (readAccess s off), lastOwn := false } } :=
    rfl
  rw [hpresent]
  refine ⟨settle_same hwaits rfl s, ?_⟩
  rw [settle, settleWith_eq (u := v) hq hwaits, markRecords_same (s := s) (v := v) rfl, hp, arbitrate, show v.port.cur = none from hp]
  simp only [Option.isSome_none, Bool.false_eq_true, if_false, Option.isNone_none, if_true, hhost, Option.toList_some]
  refine ⟨pickGrant_cur (by simp) (fun g hg => ?_) v, fun hno => ?_⟩
  · rcases List.mem_append.mp hg with hg | hg
    · exact ownGrants_cur hg
    · rw [List.mem_singleton.mp hg]
      rfl
  · have hown : ownGrants v = [] := ownGrants_nil fun r => rank_none fun h => hno r ((asks_congr (s := s) (t := v) rfl rfl rfl rfl (fun _ => rfl) Iff.rfl r).mp h)
    rw [hown]
    exact ⟨rfl, rfl⟩

end Sys2Proof.Machine

/-! The floor wait limit and the status interval (R109, R170). -/

namespace Sys2Proof.Machine

variable {s t u v : State} {c : Cam} {q : Cue} {k : Camera}

theorem Settled.keepsQueue (h : Settled (withCam c k u) v) (hq : k.queue = []) : (v.cam c).queue = [] := by rw [h.camIs, hq]

theorem expireWait_ends (h : waitExpired (s.cam c) = true) : expireWait c s = takeHead c (endActive c .floorTimeout 0 s) := if_pos h

theorem expireWait_inside (c : Cam) (s : State) : Inside s (expireWait c s) :=
  inside_ite ((endActive_inside ..).trans (takeHead_inside ..)) (.refl s)

theorem floorTimeout_ends (hw : HostWaits s) (hset : inWaitingSet (s.cam c) = true) (hz : (s.cam c).cfg.floorLimit ≠ 0)
    (hmax : (s.cam c).cfg.floorLimit ≤ 65535) (hcount : (s.cam c).waitCount + 1 = (s.cam c).cfg.floorLimit) (ha : (s.cam c).active = some q)
    (hq : (s.cam c).queue = []) :
    ∃ t, exec (.floorTimeout c) s = .next t ∧ SameMemory s t ∧
      Settled
        { withCam c (cueEnded q .floorTimeout 0 (s.cam c)) s with
          stat := { s.stat with flags := s.stat.flags ||| flagCueResult ||| flagCueRefused } } t := by
  have hlimit : waitAtLimit (s.cam c) = true := by simp [waitAtLimit, hset, hz, hcount]
  have hexec : exec (.floorTimeout c) s =
      .next (settle s (expireWait c (s.modCam c fun k => { k with waitCount := Nat.min 65535 (k.waitCount + 1) }))) := if_pos hlimit
  have hin := (modCam_inside c (fun k => { k with waitCount := Nat.min 65535 (k.waitCount + 1) }) s).trans (expireWait_inside c _)
  have hwaits := hin.waits hw
  refine ⟨_, hexec, settle_same hwaits hin.mem s, settle_settled hwaits ?_ s⟩
  have hstart : Settled (withCam c { s.cam c with waitCount := Nat.min 65535 ((s.cam c).waitCount + 1) } s)
      (s.modCam c fun k => { k with waitCount := Nat.min 65535 (k.waitCount + 1) }) :=
    (Settled.own (.refl s)).changes fun k => { k with waitCount := Nat.min 65535 (k.waitCount + 1) }
  have hreached : Nat.min 65535 ((s.cam c).waitCount + 1) = (s.cam c).cfg.floorLimit := by rw [hcount]; exact Nat.min_eq_right hmax
  have hexpired : waitExpired ((s.modCam c fun k => { k with waitCount := Nat.min 65535 (k.waitCount + 1) }).cam c) = true := by
    rw [hstart.camIs, hreached]
    have hset' : inWaitingSet { s.cam c with waitCount := (s.cam c).cfg.floorLimit } = true := hset
    simp [waitExpired, hset', hz]
  have hend := hstart.ends (q := q) ha .floorTimeout 0
  rw [expireWait_ends hexpired, takeHead_of_empty (hend.keepsQueue hq)]
  exact { hend with flags := hend.flags.trans (refusedFlags rfl _) }

/-- While the port is held no due item is taken up. -/
theorem settle_held_due {i : StatusItem} (hw : HostWaits v) (hp : v.port.cur.isSome = true) (hd : itemDue i v.stat = true) (old : State) :
    itemDue i (settle old v).stat = true := by
  obtain ⟨e, he⟩ := settleWith_form hw old.port.cur.isNone old
  have hheld : (markRecords old { v with shot := e }).port.cur.isSome = true := hp
  rw [settle, he, arbitrate, if_pos hheld]
  exact markRecords_keeps (v := { v with shot := e }) hd old

/-- Settles O46: the floor wait limit ends the cue, and the status interval makes its items due. -/
theorem waitLimitAndStatusInterval : Obligations.WaitLimitAndStatusInterval := by
  refine ⟨fun s c q hw hset hz hmax hcount ha hq => floorTimeout_ends hw hset hz hmax hcount ha hq, fun s hrun hw hcount => ?_⟩
  have hreach : s.startup = .running ∧ s.stat.interval ≤ s.stat.count + 1 := ⟨hrun, Nat.le_of_eq hcount.symm⟩
  have hexec : exec .statusInterval s = .next (settle s (reachInterval s)) := if_pos hreach
  have hwaits : HostWaits (reachInterval s) := hw
  refine ⟨_, hexec, settle_same hwaits rfl s, settle_settled hwaits ?_ s, fun hp => ?_⟩
  · have h := Settled.refl s
    exact { h with count := rfl }
  · have hdue (c : Cam) (h : (s.cam c).state = .moving ∨ (s.cam c).state = .halting ∨ (s.cam c).state = .direct) :
        itemDue (.record c) (reachInterval s).stat = true := by
      have hstate : intervalState (s.cam c).state = true := by rcases h with h | h | h <;> rw [h] <;> rfl
      simp [reachInterval, State.modStat, itemDue, hstate]
    exact ⟨settle_held_due (i := .syncGroup) hwaits hp rfl s, fun c h => settle_held_due (i := .record c) hwaits hp (hdue c h) s⟩

end Sys2Proof.Machine

/-! Tries as they leave camera and cells (R106), and steps that the cameras take one after another (R107, R144, R146). -/

namespace Sys2Proof.Machine

variable {s t u v w : State} {c d : Cam} {q : Cue} {r : Rect} {k : Camera} {o : Tried} {f : State → Cam → State} {l : List Cam}

/-! The head taken -/

theorem takeHead_cam (hi : (v.cam c).state = .idle) (hg : GotoNext (v.cam c)) : (takeHead c v).cam c = headTaken (v.cam c) := by
  rw [takeHead_goto hi hg]
  exact Vector.getElem_set_self ..

theorem takeHead_floor (hi : (v.cam c).state = .idle) (hg : GotoNext (v.cam c)) : (takeHead c v).floor = v.floor := by
  rw [takeHead_goto hi hg]
  rfl

/-! A try of a claim -/

/-- What a try, with the head taken after KEEP_OUT, leaves of its camera and of the cells (R106). -/
structure TryLeaves (c : Cam) (q : Cue) (r : Rect) (o : Tried) (s t : State) : Prop where
  cam : t.cam c = cameraTried q r (s.cam c) o
  floor : t.floor = { s.floor with cells := cellsTried s.floor.cells c r o }

theorem tried_leaves (ha : (s.cam c).active = some q) (hc : (s.cam c).claim = some r) (hg : GotoNext (s.cam c))
    (ht : TryGives s.floor.cells c r o) : TryLeaves c q r o s (nextHead c (tryClaim c s)) := by
  cases o with
  | keepOut =>
    have hend : (endActive c .keepOut 0 s).cam c = cueEnded q .keepOut 0 (s.cam c) := by
      rw [endActive_eq ha]
      exact cam_modCam_self ..
    have hidle : ((endActive c .keepOut 0 s).cam c).state = .idle := by rw [hend]; rfl
    have hgoto : GotoNext ((endActive c .keepOut 0 s).cam c) := by rw [hend]; exact hg
    rw [tryClaim_keepOut hc ht, nextHead, if_pos rfl]
    exact ⟨by rw [takeHead_cam hidle hgoto, hend]; rfl, by rw [takeHead_floor hidle hgoto, endActive_eq ha]; rfl⟩
  | denied =>
    rw [tryClaim_denied hc ht]
    exact ⟨rfl, rfl⟩
  | granted =>
    rw [tryClaim_granted hc ht]
    have hcam : ((s.holdRect c r).modCam c fun k => { k with held := some r, waitFloor := false }).cam c =
        { s.cam c with held := some r, waitFloor := false } := by rw [cam_modCam_self, State.holdRect_cam]
    have hbegin := beginMove_moveBegun (s := (s.holdRect c r).modCam c fun k => { k with held := some r, waitFloor := false }) (q := q)
      (by rw [hcam]; exact ha)
    have hfloor : (s.holdRect c r).floor = { s.floor with cells := cellsTried s.floor.cells c r .granted } := by
      rw [← paintCells_heldRect]
      dsimp only [State.holdRect, State.paint]
    rw [nextHead, if_neg nofun, hbegin]
    exact ⟨by rw [cam_modCam_self, hcam]; rfl, hfloor⟩

/-! Turns -/

/-- A step that a camera takes leaves the others. -/
theorem foldl_spares (hf : ∀ w e, Touches e w (f w e)) : ∀ (l : List Cam) (s : State), c ∉ l → (l.foldl f s).cam c = s.cam c
  | [], _, _ => rfl
  | e :: l, s, h => by
    obtain ⟨hne, hl⟩ := not_or.mp (List.mem_cons.not.mp h)
    rw [List.foldl_cons, foldl_spares hf l _ hl, (hf s e).others c hne]

/-- Where every other camera's step leaves the floor, so does the whole. -/
theorem foldl_floor (hf : ∀ w e, Touches e w (f w e)) : ∀ (l : List Cam) (s : State), l.Nodup →
    (∀ e ∈ l, ∀ w, w.cam e = s.cam e → (f w e).floor = w.floor) → (l.foldl f s).floor = s.floor
  | [], _, _, _ => rfl
  | e :: l, s, hl, h => by
    obtain ⟨he, hl⟩ := List.nodup_cons.mp hl
    rw [List.foldl_cons, foldl_floor hf l _ hl, h e List.mem_cons_self s rfl]
    intro d hd w hw
    have hne : d ≠ e := fun h => he (h ▸ hd)
    exact h d (List.mem_cons_of_mem e hd) w (hw.trans ((hf s e).others d hne))

/-- The turn of camera c: the steps before left it, and those after leave what it came to. -/
theorem foldl_turn (hf : ∀ w e, Touches e w (f w e)) (hl : l.Nodup) (hc : c ∈ l) (s : State) :
    ∃ w, w.cam c = s.cam c ∧ (l.foldl f s).cam c = (f w c).cam c ∧
      ((∀ e ∈ l, e ≠ c → ∀ w, w.cam e = s.cam e → (f w e).floor = w.floor) →
        w.floor = s.floor ∧ (l.foldl f s).floor = (f w c).floor) := by
  obtain ⟨l1, l2, rfl⟩ := List.append_of_mem hc
  obtain ⟨hl1, hl2, hdis⟩ := List.nodup_append.mp hl
  obtain ⟨hc2, hl2'⟩ := List.nodup_cons.mp hl2
  have hc1 : c ∉ l1 := fun h => hdis c h c List.mem_cons_self rfl
  refine ⟨l1.foldl f s, foldl_spares hf l1 s hc1, ?_, fun hfloor => ⟨?_, ?_⟩⟩
  · rw [List.foldl_append, List.foldl_cons, foldl_spares hf l2 _ hc2]
  · exact foldl_floor hf l1 s hl1 fun e he => hfloor e (List.mem_append_left _ he) fun h => hc1 (h ▸ he)
  · rw [List.foldl_append, List.foldl_cons]
    refine foldl_floor hf l2 _ hl2' fun e he w hw => ?_
    have hne : e ≠ c := fun h => hc2 (h ▸ he)
    have he1 : e ∉ l1 := fun h => hdis e h e (List.mem_cons_of_mem c he) rfl
    refine hfloor e (List.mem_append_right _ (List.mem_cons_of_mem c he)) hne w ?_
    rw [hw, (hf _ c).others e hne, foldl_spares hf l1 s he1]

/-! Flags that stand -/

theorem foldl_raises (hf : ∀ w e, Raises w (f w e)) : ∀ (l : List Cam) (s : State), Raises s (l.foldl f s)
  | [], s => .refl s
  | e :: l, s => (hf s e).trans (foldl_raises hf l _)

theorem raises_ite {p : Prop} [Decidable p] (h : Raises s t) (k : Raises s u) : Raises s (if p then t else u) := by
  split
  · exact h
  · exact k

theorem nextHead_raises {x : State × Bool} (h : Raises s x.1) : Raises s (nextHead c x) := raises_ite (h.trans (takeHeadN_raises ..)) h

/-- A flag just set stands at the end. -/
theorem Raises.flagged (h : Raises s t) (b : BitVec 12) (hb : ∀ i, b.getLsbD i = true → s.stat.flags.getLsbD i = true) :
    t.stat.flags &&& b = b := and_eq_of_bits fun i hi => h.flags i (hb i hi)

end Sys2Proof.Machine

/-! Tally events (R144, R145, R61). -/

namespace Sys2Proof.Machine

variable {s t u v w : State} {c d : Cam} {q : Cue} {r : Rect} {k : Camera} {o : Tried} {n : Fin 8} {on high : Bool}

/-! One camera's step -/

theorem tallyCamera_touches (on : Bool) (w : State) (c : Cam) : Touches c w (tallyCamera on w c) := by
  have htune := modCam_touches c (fun k => reformRate { k with onAir := on }) w
  unfold tallyCamera
  dsimp only
  split
  · split
    · exact htune.trans (modCam_touches c _ _)
    · split
      · exact htune.trans (nextHead_touches ((modCam_touches c _ _).trans (reasonsChanged_touches c _)))
      · exact htune
  · exact htune

theorem tallyCamera_raises (on : Bool) (w : State) (c : Cam) : Raises w (tallyCamera on w c) := by
  have htune := modCam_raises c (fun k => reformRate { k with onAir := on }) w
  unfold tallyCamera
  dsimp only
  refine raises_ite (raises_ite (htune.trans (modCam_raises ..)) (raises_ite ?_ htune)) htune
  exact htune.trans (nextHead_raises ((modCam_raises ..).trans (reasonsChanged_raises c _)))

/-- The camera's on-air state follows the line (R61). -/
def tallyTuned (on : Bool) (c : Cam) (w : State) : State := w.modCam c fun k => reformRate { k with onAir := on }

/-- The state in which a WAITING camera that goes off air has its reasons looked at. -/
def tallyGone (c : Cam) (w : State) : State := (tallyTuned false c w).modCam c fun k => { k with waitTally := false }

theorem tallyTuned_cam (h : (w.cam c).state = .waiting) : (tallyTuned on c w).cam c = { w.cam c with onAir := on } := by
  rw [tallyTuned, cam_modCam_self]
  exact reformRate_waiting h

theorem tallyGone_cam (h : (w.cam c).state = .waiting) : (tallyGone c w).cam c = { w.cam c with onAir := false, waitTally := false } := by
  rw [tallyGone, cam_modCam_self, tallyTuned_cam h]

theorem tallyCamera_other (h : (w.cam c).state ≠ .waiting) : tallyCamera on w c = tallyTuned on c w := by
  rw [tallyCamera]
  rw [if_neg h]
  rfl

theorem tallyCamera_on (h : (w.cam c).state = .waiting) :
    tallyCamera true w c = (tallyTuned true c w).modCam c fun k => { k with waitTally := k.waitTally || !k.plan.onAir } := by
  rw [tallyCamera]
  rw [if_pos h, if_pos rfl]
  rfl

theorem tallyCamera_off (h : (w.cam c).state = .waiting) :
    tallyCamera false w c = if (w.cam c).waitTally = true then nextHead c (reasonsChanged c (tallyGone c w)) else tallyTuned false c w := by
  rw [tallyCamera]
  rw [if_pos h, if_neg nofun]
  rfl

theorem tallyCamera_on_cam (h : (w.cam c).state = .waiting) :
    (tallyCamera true w c).cam c = { w.cam c with onAir := true, waitTally := (w.cam c).waitTally || !(w.cam c).plan.onAir } := by
  rw [tallyCamera_on h, cam_modCam_self, tallyTuned_cam h]

theorem tallyCamera_off_stays (h : (w.cam c).state = .waiting) (hs : (w.cam c).waitTally = false ∨ (w.cam c).waitStop = true) :
    (tallyCamera false w c).cam c = { w.cam c with onAir := false, waitTally := false } := by
  rw [tallyCamera_off h]
  cases ht : (w.cam c).waitTally with
  | false => rw [if_neg nofun, tallyTuned_cam h, ← ht]
  | true =>
    have hcam := tallyGone_cam h
    have hstop : (w.cam c).waitStop = true := hs.resolve_left (by rw [ht]; nofun)
    rw [if_pos rfl, reasonsChanged_waits (.inl (by rw [hcam]; exact hstop)), nextHead, if_neg nofun, hcam]

theorem tallyCamera_off_begins (h : (w.cam c).state = .waiting) (ht : (w.cam c).waitTally = true) (hs : (w.cam c).waitStop = false)
    (hf : (w.cam c).waitFloor = false) (ha : (w.cam c).active = some q) :
    (tallyCamera false w c).cam c = moveBegun q { w.cam c with onAir := false, waitTally := false } := by
  have hcam := tallyGone_cam h
  rw [tallyCamera_off h, if_pos ht, reasonsChanged_begins (by rw [hcam]; exact h) (by rw [hcam]; exact hs) (by rw [hcam]) (by rw [hcam]; exact hf),
    nextHead, if_neg nofun, beginMove_moveBegun (q := q) (by rw [hcam]; exact ha), cam_modCam_self, hcam]

theorem tallyCamera_off_tries (h : (w.cam c).state = .waiting) (ht : (w.cam c).waitTally = true) (hs : (w.cam c).waitStop = false)
    (hf : (w.cam c).waitFloor = true) (ha : (w.cam c).active = some q) (hc : (w.cam c).claim = some r) (hg : GotoNext (w.cam c))
    (hgive : TryGives w.floor.cells c r o) :
    (tallyCamera false w c).cam c = cameraTried q r { w.cam c with onAir := false, waitTally := false } o ∧
      (tallyCamera false w c).floor.cells = cellsTried w.floor.cells c r o := by
  have hcam := tallyGone_cam h
  have hleaves := tried_leaves (s := tallyGone c w) (q := q) (r := r) (o := o) (by rw [hcam]; exact ha) (by rw [hcam]; exact hc)
    (by rw [hcam]; exact hg) hgive
  rw [tallyCamera_off h, if_pos ht, reasonsChanged_tries (by rw [hcam]; exact h) (by rw [hcam]; exact hs) (by rw [hcam]) (by rw [hcam]; exact hf)]
  exact ⟨by rw [hleaves.cam, hcam], congrArg FloorMap.cells hleaves.floor⟩

/-- Only a camera with FLOOR among its reasons may take floor. -/
theorem tallyCamera_floor (on : Bool) (hf : (w.cam c).waitFloor = false) : (tallyCamera on w c).floor = w.floor := by
  by_cases h : (w.cam c).state = .waiting
  · cases on with
    | true => rw [tallyCamera_on h]; rfl
    | false =>
      rw [tallyCamera_off h]
      split
      · have hcam := tallyGone_cam h
        cases hs : (w.cam c).waitStop with
        | true => rw [reasonsChanged_waits (.inl (by rw [hcam]; exact hs))]; rfl
        | false =>
          rw [reasonsChanged_begins (by rw [hcam]; exact h) (by rw [hcam]; exact hs) (by rw [hcam]) (by rw [hcam]; exact hf)]
          rfl
      · rfl
  · rw [tallyCamera_other h]
    rfl

/-! The event -/

/-- The part as the cameras of the line take the event: the level is recorded, and the flag is set where the edge report names it. -/
def tallyReported (n : Fin 8) (high on : Bool) (s : State) : State :=
  let u : State :=
    { s with pins := { s.pins with tally := s.pins.tally.set n high }, lines := { s.lines with onAir := s.lines.onAir.set n on } }.lineDue
  if edgeReported s.lines n on then u.flag flagTallyEdge else u

theorem tallyReported_cam (c : Cam) : (tallyReported n high on s).cam c = s.cam c := by
  unfold tallyReported
  dsimp only
  split <;> rfl

theorem tallyChange_eq (hrun : s.startup = .running) (hon : on = (high != s.lines.polarity.getLsbD n.val)) (hne : on ≠ s.lines.onAir[n]) :
    tallyChange n high s = (allCams.filter fun c => usesLine (s.cam c) n).foldl (tallyCamera on) (tallyReported n high on s) := by
  subst hon
  have hcond : s.startup = .running ∧ onAirLevel s.lines n high ≠ s.lines.onAir[n] := ⟨hrun, hne⟩
  have hcam (x : Cam) : usesLine ((tallyReported n high (high != s.lines.polarity.getLsbD n.val) s).cam x) n = usesLine (s.cam x) n := by
    rw [tallyReported_cam]
  simp only [← hcam]
  rw [tallyChange]
  exact if_pos hcond

theorem tallyReported_eq (n : Fin 8) (high on : Bool) (s : State) : ∃ x,
    tallyReported n high on s =
      { s with
        pins := { s.pins with tally := s.pins.tally.set n high }, lines := { s.lines with onAir := s.lines.onAir.set n on }, stat := x } := by
  unfold tallyReported
  dsimp only
  split
  · exact ⟨_, rfl⟩
  · exact ⟨_, rfl⟩

theorem edgeReported_eq (l : LineMonitor) (n : Fin 8) (on : Bool) :
    edgeReported l n on = l.edges.getLsbD (2 * n.val + (if on then 0 else 1)) := by
  cases on <;> simp [edgeReported, edgeReport]

theorem foldl_port {f : State → Cam → State} (hf : ∀ w e, Touches e w (f w e)) : ∀ (l : List Cam) (s : State), (l.foldl f s).port = s.port
  | [], _ => rfl
  | e :: l, s => (foldl_port hf l _).trans (hf s e).port

/-- What a change at a tally pin leaves outside the cameras and the lines. -/
theorem tallyChange_inside (n : Fin 8) (high : Bool) (s : State) (hw : HostWaits s) :
    HostWaits (tallyChange n high s) ∧ (tallyChange n high s).mem = s.mem ∧ (tallyChange n high s).pins.tally = s.pins.tally.set n high := by
  by_cases h : s.startup = .running ∧ (high != s.lines.polarity.getLsbD n.val) ≠ s.lines.onAir[n]
  · obtain ⟨x, hx⟩ := tallyReported_eq n high (high != s.lines.polarity.getLsbD n.val) s
    have hin := foldl_inside (fun w e => (tallyCamera_touches (high != s.lines.polarity.getLsbD n.val) w e).inside)
      (allCams.filter fun c => usesLine (s.cam c) n) (tallyReported n high (high != s.lines.polarity.getLsbD n.val) s)
    rw [tallyChange_eq h.1 rfl h.2]
    rw [hx] at hin ⊢
    exact ⟨hin.waits hw, hin.mem, congrArg Pins.tally hin.pins⟩
  · have hsame : tallyChange n high s = { s with pins := { s.pins with tally := s.pins.tally.set n high } } := if_neg h
    rw [hsame]
    exact ⟨hw, rfl, rfl⟩

/-- A camera that does not take the event. -/
theorem tallyChange_spares (hrun : s.startup = .running) (hon : on = (high != s.lines.polarity.getLsbD n.val)) (hne : on ≠ s.lines.onAir[n])
    (h : usesLine (s.cam c) n = false) : (tallyChange n high s).cam c = s.cam c := by
  rw [tallyChange_eq hrun hon hne, foldl_spares (tallyCamera_touches on), tallyReported_cam]
  intro hc
  rw [(List.mem_filter.mp hc).2] at h
  cases h

/-- The turn of a camera of the line. -/
theorem tallyChange_turn (hrun : s.startup = .running) (hon : on = (high != s.lines.polarity.getLsbD n.val)) (hne : on ≠ s.lines.onAir[n])
    (h : usesLine (s.cam c) n = true) : ∃ w, w.cam c = s.cam c ∧ (tallyChange n high s).cam c = (tallyCamera on w c).cam c ∧
      ((∀ d : Cam, d ≠ c → (s.cam d).cfg.tally = some n → (s.cam d).waitFloor = false) →
        w.floor = s.floor ∧ (tallyChange n high s).floor = (tallyCamera on w c).floor) := by
  rw [tallyChange_eq hrun hon hne]
  obtain ⟨w, hcam, hturn, hfloor⟩ := foldl_turn (tallyCamera_touches on) (allCams_nodup.filter fun x => usesLine (s.cam x) n)
    (List.mem_filter.mpr ⟨List.mem_finRange c, h⟩) (tallyReported n high on s)
  refine ⟨w, hcam.trans (tallyReported_cam c), hturn, fun hothers => ?_⟩
  obtain ⟨hw, ht⟩ := hfloor fun d hd hdc w hwd => tallyCamera_floor on (by
    rw [hwd, tallyReported_cam]
    obtain ⟨-, hline⟩ := Bool.and_eq_true_iff.mp (List.mem_filter.mp hd).2
    exact hothers d hdc (by simpa using hline))
  obtain ⟨x, hx⟩ := tallyReported_eq n high on s
  rw [hx] at hw
  exact ⟨hw, ht⟩

/-- Settles O47: the cameras of the line take the event one after another, each by its state, and no other camera changes. -/
theorem tallyEventReachesItsCameras : Obligations.TallyEventReachesItsCameras := by
  intro s n high hrun hw hp
  have hexec : exec (.tallyEvent n high) s = .next (settle s (tallyChange n high s)) := if_neg hp
  obtain ⟨hwaits, hmem, hpins⟩ := tallyChange_inside n high s hw
  have hset := settle_settled hwaits (.refl _) s
  refine ⟨_, hexec, settle_same hwaits hmem s, (congrArg Pins.tally hset.pins).trans hpins, fun on hon hne => ?_⟩
  have heq := tallyChange_eq hrun hon hne
  have hin := foldl_inside (fun w e => (tallyCamera_touches on w e).inside) (allCams.filter fun c => usesLine (s.cam c) n) (tallyReported n high on s)
  have hraise := foldl_raises (tallyCamera_raises on) (allCams.filter fun c => usesLine (s.cam c) n) (tallyReported n high on s)
  have hport := foldl_port (tallyCamera_touches on) (allCams.filter fun c => usesLine (s.cam c) n) (tallyReported n high on s)
  rw [← heq] at hin hraise hport
  obtain ⟨x, hx⟩ := tallyReported_eq n high on s
  have hlines : (tallyChange n high s).lines = { s.lines with onAir := s.lines.onAir.set n on } := hin.lines.trans (by rw [hx])
  refine ⟨hset.lines.trans hlines, fun hheld => ?_, fun hedge => ?_, fun c => ⟨fun h => ?_, fun hen hline => ?_⟩⟩
  · have hchanged : ReportChanged s (tallyChange n high s) .lineState := .inl fun h => by
      rw [hlines] at h
      have := congrArg (fun v : Vector Bool 8 => v[n]) h
      simp at this
      exact hne this
    exact settle_held_due (i := .lineState) hwaits (by rw [hport, hx]; exact hheld)
      ((tallyChange_course (s0 := s) (P := ∅) n high).orderly.marked .lineState nofun hchanged) s
  · rw [hset.flags]
    refine hraise.flagged flagTallyEdge fun i hi => ?_
    have hreported : edgeReported s.lines n on = true := by rw [edgeReported_eq]; exact hedge
    have hflags : (tallyReported n high on s).stat.flags = s.stat.flags ||| flagTallyEdge := by
      rw [tallyReported]
      exact congrArg (fun u : State => u.stat.flags) (if_pos hreported)
    rw [hflags, BitVec.getLsbD_or, hi, Bool.or_true]
  · have hline : usesLine (s.cam c) n = false := by
      rcases h with h | h <;> simp [usesLine, h]
    rw [hset.cam, tallyChange_spares hrun hon hne hline]
  · have huses : usesLine (s.cam c) n = true := by simp [usesLine, hen, hline]
    obtain ⟨w, hcam, hturn, hfloor⟩ := tallyChange_turn hrun hon hne huses
    rw [hset.cam, hset.floor, hturn]
    refine ⟨fun hs hm => ?_, fun hm => ?_, fun hs ho => ?_, fun hs ho hstay => ?_, fun q hs ho ht hst ha => ⟨fun hf => ?_, fun r o hf hc hg hd ho' => ?_⟩⟩
    · rw [tallyCamera_other (by rw [hcam]; exact hs), tallyTuned, cam_modCam_self, hcam]
      exact reformRate_resting hm
    · have hs : (s.cam c).state ≠ .waiting := fun h => by rw [h] at hm; cases hm
      rw [tallyCamera_other (by rw [hcam]; exact hs), tallyTuned, cam_modCam_self, hcam]
      exact reformRate_moving hm
    · subst ho
      rw [tallyCamera_on_cam (by rw [hcam]; exact hs), hcam]
    · rw [ho, tallyCamera_off_stays (by rw [hcam]; exact hs) (by rw [hcam]; exact hstay), hcam]
    · rw [ho, tallyCamera_off_begins (q := q) (by rw [hcam]; exact hs) (by rw [hcam]; exact ht) (by rw [hcam]; exact hst) (by rw [hcam]; exact hf)
        (by rw [hcam]; exact ha), hcam]
    · obtain ⟨hw', ht'⟩ := hfloor hd
      have htry := tallyCamera_off_tries (w := w) (q := q) (r := r) (o := o) (by rw [hcam]; exact hs) (by rw [hcam]; exact ht)
        (by rw [hcam]; exact hst) (by rw [hcam]; exact hf) (by rw [hcam]; exact ha) (by rw [hcam]; exact hc) (by rw [hcam]; exact hg)
        (by rw [hw']; exact ho')
      rw [hcam, hw'] at htry
      rw [ht', ho]
      exact htry

end Sys2Proof.Machine

/-! The release examination (R107). -/

namespace Sys2Proof.Machine

variable {s t u v w : State} {c d x : Cam} {q : Cue} {r : Rect} {k : Camera} {o : Tried} {l : List ExamTry} {g h : Grid Cell} {e : ExamTry}

/-! The order of an examination -/

/-- The order of the waiting cameras in an examination (R107). -/
def Earlier (w : State) (x y : Cam) : Prop :=
  activeLevel (w.cam x) < activeLevel (w.cam y) ∨ activeLevel (w.cam x) = activeLevel (w.cam y) ∧ x < y

theorem earlier_irrefl (w : State) (x : Cam) : ¬Earlier w x x := by
  rintro (h | ⟨-, h⟩)
  · exact lt_irrefl _ h
  · exact lt_irrefl _ h

theorem earlier_asymm {y : Cam} (h : Earlier w x y) : ¬Earlier w y x := by
  rcases h with h | ⟨h, hlt⟩
  · rintro (h' | ⟨h', -⟩) <;> omega
  · rintro (h' | ⟨-, hlt'⟩)
    · omega
    · exact lt_asymm hlt hlt'

theorem mem_examList : x ∈ examList w ↔ inWaitingSet (w.cam x) = true ∧ activeLevel (w.cam x) < 4 := by
  have hlevel : activeLevel (w.cam x) ∈ [0, 1, 2, 3] ↔ activeLevel (w.cam x) < 4 := by simp; omega
  simp only [examList, List.mem_flatMap, List.mem_filter, Bool.and_eq_true, beq_iff_eq, ← hlevel]
  exact ⟨fun ⟨n, hn, _, hw, hl⟩ => ⟨hw, hl ▸ hn⟩, fun ⟨hw, hl⟩ => ⟨_, hl, List.mem_finRange x, hw, rfl⟩⟩

theorem examList_ordered (w : State) : (examList w).Pairwise (Earlier w) := by
  rw [examList, List.pairwise_flatMap]
  refine ⟨fun n _ => ?_, ?_⟩
  · refine ((List.pairwise_lt_finRange 8).filter _).imp_of_mem fun {x y} hx hy hlt => .inr ⟨?_, hlt⟩
    have hx' := (Bool.and_eq_true_iff.mp (List.mem_filter.mp hx).2).2
    have hy' := (Bool.and_eq_true_iff.mp (List.mem_filter.mp hy).2).2
    rw [beq_iff_eq] at hx' hy'
    rw [hx', hy']
  · refine (show [0, 1, 2, 3].Pairwise (· < ·) by decide).imp fun {m n} hmn x hx y hy => .inl ?_
    have hx' := (Bool.and_eq_true_iff.mp (List.mem_filter.mp hx).2).2
    have hy' := (Bool.and_eq_true_iff.mp (List.mem_filter.mp hy).2).2
    rw [beq_iff_eq] at hx' hy'
    rw [hx', hy']
    exact hmn

/-- What an examination takes up of each camera it tries: it waits, and its cue, its claim and its next head are as told. -/
structure Awaits (w : State) (e : ExamTry) : Prop where
  set : inWaitingSet (w.cam e.cam) = true
  active : (w.cam e.cam).active = some e.cue
  claim : (w.cam e.cam).claim = some e.claim
  next : GotoNext (w.cam e.cam)

theorem Awaits.congr (h : Awaits w e) (hc : v.cam e.cam = w.cam e.cam) : Awaits v e := by
  obtain ⟨h1, h2, h3, h4⟩ := h
  exact ⟨by rw [hc]; exact h1, by rw [hc]; exact h2, by rw [hc]; exact h3, by rw [hc]; exact h4⟩

theorem Awaits.level (h : Awaits w e) : activeLevel (w.cam e.cam) = e.cue.level.toNat := by rw [activeLevel, h.active]

/-- The cameras an examination tries are those that wait, in their order. -/
theorem examList_eq (hl : l.Pairwise ExamBefore) (ha : ∀ e ∈ l, Awaits w e) (hw : ∀ x, inWaitingSet (w.cam x) = true → ∃ e ∈ l, e.cam = x) :
    examList w = l.map (·.cam) := by
  have hpair : (l.map (·.cam)).Pairwise (Earlier w) := by
    rw [List.pairwise_map]
    refine hl.imp_of_mem fun {e e'} he he' hlt => ?_
    have h1 := (ha e he).level
    have h2 := (ha e' he').level
    rw [Earlier, h1, h2]
    rcases hlt with hlt | ⟨heq, hlt⟩
    · exact .inl hlt
    · exact .inr ⟨by rw [heq], hlt⟩
  have : Std.Irrefl (Earlier w) := ⟨earlier_irrefl w⟩
  have : Std.Antisymm (Earlier w) := ⟨fun x y h h' => absurd h' (earlier_asymm h)⟩
  refine (examList_ordered w).eq_of_mem_iff hpair fun x => ?_
  rw [mem_examList, List.mem_map]
  constructor
  · exact fun ⟨hset, _⟩ => hw x hset
  · rintro ⟨e, he, rfl⟩
    refine ⟨(ha e he).set, ?_⟩
    rw [(ha e he).level]
    exact e.cue.level.isLt

theorem examBefore_ne {e' : ExamTry} (h : ExamBefore e e') : e.cam ≠ e'.cam ∨ e.cue.level ≠ e'.cue.level := by
  rcases h with h | ⟨-, h⟩
  · exact .inr fun he => by rw [he] at h; exact lt_irrefl _ h
  · exact .inl (ne_of_lt h)

/-! The tries one after another -/

theorem examOne_waiting (h : inWaitingSet (w.cam x) = true) : examOne w x = nextHead x (tryClaim x w) := if_pos h

theorem examOne_touches (w : State) (x : Cam) : Touches x w (examOne w x) := by
  unfold examOne
  split
  · exact nextHead_touches (tryClaim_touches x w)
  · exact .refl x w

/-- What the tries of an examination leave: the cells, the cameras tried, and every other camera as it was (R107). -/
structure ExamLeaves (l : List ExamTry) (h : Grid Cell) (w v : State) : Prop where
  floor : v.floor = { w.floor with cells := h }
  tried : ∀ e ∈ l, v.cam e.cam = cameraTried e.cue e.claim (w.cam e.cam) e.outcome
  others : ∀ x, (∀ e ∈ l, e.cam ≠ x) → v.cam x = w.cam x

theorem exam_leaves : ∀ (l : List ExamTry) (w : State), (l.map (·.cam)).Nodup → (∀ e ∈ l, Awaits w e) → TriesGive w.floor.cells l h →
    ExamLeaves l h w ((l.map (·.cam)).foldl examOne w)
  | [], w, _, _, hg => ⟨by rw [show h = w.floor.cells from hg]; rfl, nofun, fun _ _ => rfl⟩
  | e :: l, w, hnodup, ha, hg => by
    obtain ⟨hnew, hnodup⟩ := List.nodup_cons.mp hnodup
    obtain ⟨hset, hactive, hclaim, hnext⟩ := ha e List.mem_cons_self
    obtain ⟨hgive, hrest⟩ := hg
    have hstep := tried_leaves hactive hclaim hnext hgive
    have htouch := examOne_touches w e.cam
    rw [← examOne_waiting hset] at hstep
    have hne : ∀ e' ∈ l, e'.cam ≠ e.cam := fun e' he' h => hnew (List.mem_map.mpr ⟨e', he', h⟩)
    have hothers : ∀ e' ∈ l, (examOne w e.cam).cam e'.cam = w.cam e'.cam := fun e' he' => htouch.others _ (hne e' he')
    have ih := exam_leaves l (examOne w e.cam) hnodup (fun e' he' => (ha e' (List.mem_cons_of_mem e he')).congr (hothers e' he'))
      (by rw [hstep.floor]; exact hrest)
    refine ⟨ih.floor.trans (by rw [hstep.floor]), fun e' he' => ?_, fun x hx => ?_⟩
    · rcases List.mem_cons.mp he' with rfl | he'
      · exact (ih.others _ hne).trans hstep.cam
      · rw [← hothers e' he']
        exact ih.tried e' he'
    · exact (ih.others x fun e' he' => hx e' (List.mem_cons_of_mem e he')).trans (htouch.others x (hx e List.mem_cons_self).symm)

theorem tries_nodup (hl : l.Pairwise ExamBefore) (ha : ∀ e ∈ l, Awaits w e) : (l.map (·.cam)).Nodup := by
  rw [List.Nodup, List.pairwise_map]
  refine hl.imp_of_mem fun {e e'} he he' hb heq => ?_
  rcases examBefore_ne hb with hne | hne
  · exact hne heq
  · refine hne (BitVec.eq_of_toNat_eq ?_)
    rw [← (ha e he).level, ← (ha e' he').level, heq]

/-- A release examination tries each waiting camera once, in the order, on the cells the tries before it left (R107). -/
theorem releaseExam_leaves (hl : l.Pairwise ExamBefore) (ha : ∀ e ∈ l, Awaits w e)
    (hw : ∀ x, inWaitingSet (w.cam x) = true → ∃ e ∈ l, e.cam = x) (hg : TriesGive w.floor.cells l h) : ExamLeaves l h w (releaseExam w) := by
  rw [releaseExam, examList_eq hl ha hw]
  exact exam_leaves l w (tries_nodup hl ha) ha hg

end Sys2Proof.Machine

/-! The events that bring a release examination at the Cue Unit and at the zone table (R107, R110, R111, R116). -/

namespace Sys2Proof.Machine

variable {s t u v w : State} {c x : Cam} {l : List ExamTry} {g h : Grid Cell} {i : Instr} {z : Fin 16} {m : MWord}

/-! An event that changes one camera beside the floor -/

/-- t differs from s in camera c and in what is neither a camera nor the floor. -/
structure Beside (c : Cam) (s t : State) : Prop where
  others : ∀ x, x ≠ c → t.cam x = s.cam x
  floor : t.floor = s.floor

theorem Beside.refl (c : Cam) (s : State) : Beside c s s := ⟨fun _ _ => rfl, rfl⟩

theorem Beside.trans (h : Beside c s t) (k : Beside c t u) : Beside c s u :=
  ⟨fun x hx => (k.others x hx).trans (h.others x hx), k.floor.trans h.floor⟩

theorem Beside.of_touches (h : Touches c s t) (hf : t.floor = s.floor) : Beside c s t := ⟨h.others, hf⟩

theorem modCam_beside (c : Cam) (f : Camera → Camera) (s : State) : Beside c s (s.modCam c f) := .of_touches (modCam_touches c f s) rfl

theorem recordResult_beside (c : Cam) (tag : BitVec 8) (kind : BitVec 4) (code : Code) (detail : BitVec 16) (s : State) :
    Beside c s (recordResult c tag kind code detail s) := .of_touches (recordResult_touches ..) rfl

theorem endActive_beside (c : Cam) (code : Code) (detail : BitVec 16) (s : State) : Beside c s (endActive c code detail s) := by
  refine .of_touches (endActive_touches ..) ?_
  unfold endActive
  dsimp only
  split <;> rfl

theorem orphanPort_beside (c : Cam) (p : Owner → Bool) (s : State) : Beside c s (s.orphanPort p) := by
  obtain ⟨q, hq, -, -⟩ := orphanPort_cases p s
  rw [hq]
  exact ⟨fun _ _ => rfl, rfl⟩

theorem cancelWork_beside (c : Cam) (p : ShotReq → Bool) (s : State) : Beside c s (cancelWork p s) := by
  unfold cancelWork
  dsimp only
  split
  · split
    · exact Beside.trans (t := (s.modShot _).modShot _) ⟨fun _ _ => rfl, rfl⟩ (orphanPort_beside c _ _)
    · exact ⟨fun _ _ => rfl, rfl⟩
  · exact ⟨fun _ _ => rfl, rfl⟩

theorem withdrawn_beside (c : Cam) (s : State) : Beside c s (withdrawn c s) := by
  obtain ⟨q, p, hq⟩ : ∃ q p, withdrawn c s = { abandonCapture c (cancelWork (fetchOf c) s) with port := q, setp := p } := withdrawn_eq c s
  have hcapture : Beside c (cancelWork (fetchOf c) s) (abandonCapture c (cancelWork (fetchOf c) s)) := by
    unfold abandonCapture
    split
    · exact (cancelWork_beside c _ _).trans (recordResult_beside ..)
    · exact .refl c _
  have hboth := (cancelWork_beside c (fetchOf c) s).trans hcapture
  rw [hq]
  exact ⟨hboth.others, hboth.floor⟩

theorem endActive_cfg (c : Cam) (code : Code) (detail : BitVec 16) (s : State) : ((endActive c code detail s).cam c).cfg = (s.cam c).cfg := by
  unfold endActive
  dsimp only
  rw [cam_modCam_self]
  split
  · rw [recordResult_cam]; rfl
  · rfl

/-! The state an examination begins on -/

/-- The state w an examination begins on: the cameras other than c stand as in s, c does not wait for floor, and the cells are g. -/
structure ExamBegins (s : State) (c : Cam) (g : Grid Cell) (w : State) : Prop where
  others : ∀ x, x ≠ c → w.cam x = s.cam x
  out : inWaitingSet (w.cam c) = false
  cells : w.floor.cells = g

/-- Camera c and the cells change, and camera c does not wait for floor. -/
theorem ExamBegins.of_paint (hb : Beside c s u) {p : Fin 32 → Fin 32 → Cell → Cell} (hg : paintCells p s.floor.cells = g)
    {f : Camera → Camera} (ho : inWaitingSet (f (u.cam c)) = false) : ExamBegins s c g ((u.paint p).modCam c f) := by
  have hcam : ∀ x, (u.paint p).cam x = u.cam x := fun x => State.paint_cam ..
  have hcells : (u.paint p).floor.cells = g := by
    unfold State.paint
    rw [← hg, ← hb.floor]
  generalize u.paint p = v at hcam hcells
  refine ⟨fun x hx => ?_, ?_, hcells⟩
  · rw [cam_modCam_other hx, hcam, hb.others x hx]
  · rw [cam_modCam_self, hcam]; exact ho

theorem ExamBegins.later (hw : ExamBegins s c g w) (hb : Beside c w v) (ho : inWaitingSet (v.cam c) = false) : ExamBegins s c g v :=
  ⟨fun x hx => (hb.others x hx).trans (hw.others x hx), ho, by rw [hb.floor]; exact hw.cells⟩

/-- The event leaves t by an examination begun beside camera c on the cells g. -/
def Examines (s : State) (c : Cam) (g : Grid Cell) (t : State) : Prop := ∃ w, ExamBegins s c g w ∧ Beside c (releaseExam w) t

theorem Examines.later (h : Examines s c g u) (hb : Beside c u v) : Examines s c g v := by
  obtain ⟨w, hw, hu⟩ := h
  exact ⟨w, hw, hu.trans hb⟩

/-- An examination tries the cameras other than c that wait, and leaves the others. -/
theorem Examines.leaves (he : Examines s c g t) (hset : ∀ x, x ≠ c → (inWaitingSet (s.cam x) = true ↔ ∃ e ∈ l, e.cam = x))
    (hl : l.Pairwise ExamBefore)
    (ha : ∀ e ∈ l, e.cam ≠ c ∧ (s.cam e.cam).active = some e.cue ∧ (s.cam e.cam).claim = some e.claim ∧ GotoNext (s.cam e.cam))
    (hg : TriesGive g l h) :
    t.floor.cells = h ∧ (∀ e ∈ l, t.cam e.cam = cameraTried e.cue e.claim (s.cam e.cam) e.outcome) ∧
      ∀ x, x ≠ c → inWaitingSet (s.cam x) = false → t.cam x = s.cam x := by
  obtain ⟨w, hw, hu⟩ := he
  have hawait : ∀ e ∈ l, Awaits w e := fun e he => by
    obtain ⟨hne, hactive, hclaim, hnext⟩ := ha e he
    exact Awaits.congr ⟨(hset _ hne).mpr ⟨e, he, rfl⟩, hactive, hclaim, hnext⟩ (hw.others _ hne)
  have hall : ∀ x, inWaitingSet (w.cam x) = true → ∃ e ∈ l, e.cam = x := fun x hx => by
    have hne : x ≠ c := fun he => by rw [he, hw.out] at hx; cases hx
    rw [hw.others x hne] at hx
    exact (hset x hne).mp hx
  have hleaves := releaseExam_leaves hl hawait hall (by rw [hw.cells]; exact hg)
  refine ⟨by rw [hu.floor, hleaves.floor], fun e he => ?_, fun x hx hout => ?_⟩
  · have hne := (ha e he).1
    rw [hu.others _ hne, hleaves.tried e he, hw.others _ hne]
  · have hno : ∀ e ∈ l, e.cam ≠ x := fun e he heq => by
      rw [(hset x hx).mpr ⟨e, he, heq⟩] at hout
      cases hout
    rw [hu.others x hx, hleaves.others x hno, hw.others x hx]

/-! The Cue Unit (R45, R64, R78) -/

theorem disableEnabled_examines (c : Cam) (tag : BitVec 8) (s : State) :
    Examines s c (cellsLeft s.floor c) (disableEnabled c tag s) := by
  rw [disableEnabled_eq]
  have hbegin : ExamBegins s c (cellsLeft s.floor c) (((withdrawn c s).freeOutside c none).modCam c disabledCamera) :=
    .of_paint (withdrawn_beside c s) (paintCells_freeAll ..) rfl
  refine ⟨_, hbegin.later (recordResult_beside ..) ?_, .refl c _⟩
  rw [recordResult_cam, cam_modCam_self]
  rfl

theorem disableAdopting_examines (c : Cam) (tag : BitVec 8) (s : State) : Examines s c s.floor.cells (disableAdopting c tag s) := by
  unfold disableAdopting
  dsimp only
  have hleft : Beside c s ((s.leaveAdoption c).orphanPort (adoptionOwner c)) :=
    Beside.trans (t := s.leaveAdoption c) ⟨fun _ _ => rfl, rfl⟩ (orphanPort_beside c _ _)
  generalize (s.leaveAdoption c).orphanPort (adoptionOwner c) = v at hleft
  have hout := hleft.trans (modCam_beside c (fun k => { k with state := .offline, adoption := none, queue := [], cfg := emptyConfig }) v)
  have hstate := cam_modCam_self c (fun k => { k with state := .offline, adoption := none, queue := [], cfg := emptyConfig }) v
  generalize v.modCam c _ = u at hout hstate
  have hu : inWaitingSet (u.cam c) = false := by rw [hstate]; rfl
  refine ⟨_, ⟨fun x hx => ?_, ?_, ?_⟩, .refl c _⟩
  all_goals split
  · exact ((hout.trans (recordResult_beside ..)).trans (recordResult_beside ..)).others x hx
  · exact (hout.trans (recordResult_beside ..)).others x hx
  · rw [cueDone, recordResult_cam, recordResult_cam]; exact hu
  · rw [cueDone, recordResult_cam]; exact hu
  · exact congrArg FloorMap.cells ((hout.trans (recordResult_beside ..)).trans (recordResult_beside ..)).floor
  · exact congrArg FloorMap.cells (hout.trans (recordResult_beside ..)).floor

/-- A move's cue ends, both marks are cleared, and a ROAMING camera gives back the floor outside its parked rectangle at a place. -/
def moveOver (c : Cam) (code : Code) (detail : BitVec 16) (x y : Int) (s : State) : State :=
  giveBack c x y ((endActive c code detail s).modCam c unmarked)

/-- The camera of a ROAMING move that is over, and the examination its floor brings. -/
theorem moveOver_roaming (hk : (s.cam c).cfg.kind = some .roaming) (code : Code) (detail : BitVec 16) (x y : Int) :
    Examines s c (cellsGivenBack s.floor c (parkedRect s.floor (s.cam c).cfg.margin x y)) (moveOver c code detail x y s) ∧
      (moveOver c code detail x y s).cam c =
        { unmarked ((endActive c code detail s).cam c) with held := some (parkedRect s.floor (s.cam c).cfg.margin x y) } := by
  have hend := (endActive_beside c code detail s).trans (modCam_beside c unmarked _)
  have hcam := cam_modCam_self c unmarked (endActive c code detail s)
  have hcfg := endActive_cfg c code detail s
  have hidle := endActive_state c code detail s
  rw [moveOver, ← hcam]
  generalize (endActive c code detail s).modCam c unmarked = v at hend hcam
  have hvcfg : (v.cam c).cfg = (s.cam c).cfg := by rw [hcam]; exact hcfg
  have hvidle : (v.cam c).state = .idle := by rw [hcam]; exact hidle
  rw [giveBack, if_pos (show isRoaming (v.cam c) = true by rw [isRoaming, hvcfg, hk]; rfl), hvcfg, hend.floor]
  dsimp only
  generalize parkedRect s.floor (s.cam c).cfg.margin x y = r
  have hbegin : ExamBegins s c (cellsGivenBack s.floor c r) ((v.freeOutside c (some r)).modCam c fun k => { k with held := some r }) :=
    .of_paint hend (paintCells_freeOutside ..) (by simp [inWaitingSet, hvidle])
  refine ⟨⟨_, hbegin, .refl c _⟩, ?_⟩
  rw [releaseExam_cam hbegin.out, cam_modCam_self, State.freeOutside_cam]

/-! The zone table (R116) -/

theorem paintCells_unzoned (f : FloorMap) (z : Fin 16) : paintCells (freedBy f z) f.cells = cellsUnzoned f z := by
  refine paintCells_ext (fun x y => ?_) rfl
  have hother : otherZone f z x y = false ↔
      ∀ i : Fin 16, i ≠ z → f.zones[i].status = .active → f.zones[i].applied.any (inRect · x y) = false := by
    rw [Bool.eq_false_iff, ne_eq, otherZone_iff]
    push Not
    simp only [Bool.not_eq_true]
  unfold freedBy
  refine if_congr ?_ rfl rfl
  rw [← hother]
  simp only [Bool.and_eq_true, Bool.not_eq_true', beq_iff_eq]
  tauto

theorem removeZone_freed (hz : s.floor.zones[z].status = .active) :
    removeZone z s = releaseExam ((s.paint (freedBy s.floor z)).zoneStatus z .inactive none) := by
  simp only [removeZone, hz]
  rfl

theorem zoneStatus_inside (z : Fin 16) (st : ZoneStatus) (r : Option Rect) (s : State) : Inside s (s.zoneStatus z st r) :=
  ⟨rfl, rfl, rfl, rfl, rfl, rfl, rfl, rfl⟩

theorem removeZone_examines (hz : s.floor.zones[z].status = .active) (hc : inWaitingSet (s.cam c) = false) :
    Examines s c (cellsUnzoned s.floor z) (removeZone z s) := by

  have hcam : ∀ x, (s.paint (freedBy s.floor z)).cam x = s.cam x := fun x => State.paint_cam ..
  have hcells : (s.paint (freedBy s.floor z)).floor.cells = cellsUnzoned s.floor z := by
    rw [← paintCells_unzoned]
    unfold State.paint
    rfl
  rw [removeZone_freed hz]
  generalize s.paint (freedBy s.floor z) = v at hcam hcells
  refine ⟨v.zoneStatus z .inactive none, ⟨fun x _ => ?_, ?_, hcells⟩, .refl c _⟩
  · rw [State.zoneStatus_cam, hcam]
  · rw [State.zoneStatus_cam, hcam]; exact hc

theorem removeZone_inside (z : Fin 16) (s : State) : Inside s (removeZone z s) := by
  cases hz : s.floor.zones[z].status with
  | inactive => rw [removeZone_inactive hz]; exact .refl s
  | refusedHeld => rw [removeZone_refused hz]; exact zoneStatus_inside ..
  | active =>
    rw [removeZone_freed hz]
    have hpaint := paint_inside (freedBy s.floor z) s
    generalize s.paint (freedBy s.floor z) = v at hpaint
    exact (hpaint.trans (zoneStatus_inside ..)).trans (releaseExam_inside _)

/-! The events of R107 -/

theorem Settled.beside (h : Settled u v) (c : Cam) : Beside c u v := ⟨fun x _ => h.cam x, h.floor⟩

/-- What a post's judging examines, the post examines. -/
theorem Examines.of_post {tag : BitVec 8} {spare kind : BitVec 4} {par : BitVec 2} (h : Posting s c (commandWord tag spare kind par))
    (he : ∀ b, Examines (posted b s c (commandWord tag spare kind par)) c g
      (judgeCue c tag kind (posted b s c (commandWord tag spare kind par)))) :
    Examines s c g (postKind c tag spare kind par s) := by
  obtain ⟨b, hb⟩ := postKind_judged h
  have hwaits := (judgeCue_inside c tag kind (posted b s c (commandWord tag spare kind par))).waits (posted_waits h b)
  obtain ⟨w, hw, hu⟩ := he b
  rw [hb]
  exact ⟨w, ⟨hw.others, hw.out, hw.cells⟩, hu.trans ((settleWith_settled hwaits (.refl _) _ _).beside c)⟩

theorem releases_examines (h : Releases s i c g) : ∃ t, exec i s = .next t ∧ Examines s c g t := by
  cases h with
  | disable c tag spare par hpost hen =>
    refine ⟨_, rfl, .of_post hpost fun b => ?_⟩
    rw [judgeCue_disable, cueDisable_enabled (v := posted b s c _) hen]
    exact disableEnabled_examines c tag (posted b s c _)
  | disableAdopting c tag spare par hpost hst =>
    refine ⟨_, rfl, .of_post hpost fun b => ?_⟩
    rw [judgeCue_disable, cueDisable_adopting (v := posted b s c _) hst]
    exact disableAdopting_examines c tag (posted b s c _)
  | abandon c tag spare par hpost hst hk hq =>
    refine ⟨_, rfl, .of_post hpost fun b => ?_⟩
    obtain ⟨hex, hcam⟩ := moveOver_roaming (s := posted b s c (commandWord tag spare 5 par)) hk .abandoned 0
      (s.cam c).setpoints[floorX] (s.cam c).setpoints[floorY]
    have hgive : giveUp c (posted b s c (commandWord tag spare 5 par)) =
        moveOver c .abandoned 0 (s.cam c).setpoints[floorX] (s.cam c).setpoints[floorY] (posted b s c (commandWord tag spare 5 par)) :=
      if_pos hst
    rw [judgeCue_abandon, cueAbandon_giveUp (s := posted b s c _) (.inr (.inr hst)), hgive, takeHead_of_empty]
    · exact hex.later (recordResult_beside ..)
    · rw [cueDone, recordResult_cam, hcam]
      exact (endActive_queue c .abandoned 0 (posted b s c _)).trans hq
  | zone z rest par c hdone hok hst hc =>
    obtain ⟨-, v, hv, hs⟩ := zoneEnable_good hdone hok fun v _ =>
      (takeEnable_clear hok (getElem_zero_append rest 0#1) z v).symm ▸ ⟨(removeZone_inside z v).mem, (removeZone_inside z v).bus⟩
    rw [takeEnable_clear hok (getElem_zero_append rest 0#1)] at hs
    have hfloor : v.floor = s.floor := hv.floor
    have hcam : ∀ x, v.cam x = s.cam x := hv.cam
    obtain ⟨w, hw, hu⟩ := removeZone_examines (s := v) (z := z) (c := c) (by rw [hfloor]; exact hst) (by rw [hcam]; exact hc)
    rw [hfloor] at hw
    exact ⟨_, rfl, w, ⟨fun x hx => (hw.others x hx).trans (hcam x), hw.out, hw.cells⟩, hu.trans (hs.beside c)⟩

/-- Settles O32: each of the events examines the waiting cameras, and an examination tries them one after another. -/
theorem releaseExamination : Obligations.ReleaseExamination := by
  intro s i c g h l hrel hset hl ha hg
  obtain ⟨t, ht, he⟩ := releases_examines hrel
  exact ⟨t, ht, he.leaves hset hl ha hg⟩

end Sys2Proof.Machine

/-! What the turns of the cameras at one event leave alone (R33, R60, R107, R109). -/

namespace Sys2Proof.Machine

variable {s t u v w : State} {c d : Cam} {q : Cue} {k : Camera} {code : Code} {detail : BitVec 16} {x y : Int}

/-! The part that stands -/

/-- The floor but its cells, the tick count, the timer, the Setpoint Writer and the port stand, with the config and the active bank of each camera;
no camera leaves service. -/
structure TurnKeeps (s t : State) : Prop where
  map : t.floor = { s.floor with cells := t.floor.cells }
  count : t.stat.count = s.stat.count
  interval : t.stat.interval = s.stat.interval
  timer : t.timer = s.timer
  setp : t.setp = s.setp
  port : t.port = s.port
  cfg : ∀ d, (t.cam d).cfg = (s.cam d).cfg
  bank : ∀ d, (t.cam d).activeBank = (s.cam d).activeBank
  enabled : ∀ d, enabledState (s.cam d).state = true → enabledState (t.cam d).state = true

theorem TurnKeeps.refl (s : State) : TurnKeeps s s := ⟨rfl, rfl, rfl, rfl, rfl, rfl, fun _ => rfl, fun _ => rfl, fun _ => id⟩

theorem TurnKeeps.trans (h : TurnKeeps s t) (k : TurnKeeps t u) : TurnKeeps s u where
  map := by rw [k.map, h.map]
  count := k.count.trans h.count
  interval := k.interval.trans h.interval
  timer := k.timer.trans h.timer
  setp := k.setp.trans h.setp
  port := k.port.trans h.port
  cfg d := (k.cfg d).trans (h.cfg d)
  bank d := (k.bank d).trans (h.bank d)
  enabled d := k.enabled d ∘ h.enabled d

/-- A change of a camera that leaves its config, its active bank and its service. -/
theorem modCam_keeps (c : Cam) (f : Camera → Camera) (s : State) (hcfg : (f (s.cam c)).cfg = (s.cam c).cfg)
    (hbank : (f (s.cam c)).activeBank = (s.cam c).activeBank)
    (hen : enabledState (s.cam c).state = true → enabledState (f (s.cam c)).state = true) : TurnKeeps s (s.modCam c f) := by
  refine ⟨rfl, rfl, rfl, rfl, rfl, rfl, fun d => ?_, fun d => ?_, fun d hd => ?_⟩
  all_goals by_cases he : d = c
  · rw [he, cam_modCam_self]; exact hcfg
  · rw [cam_modCam_other he]
  · rw [he, cam_modCam_self]; exact hbank
  · rw [cam_modCam_other he]
  · rw [he, cam_modCam_self]; exact hen (he ▸ hd)
  · rw [cam_modCam_other he]; exact hd

theorem paint_keeps (f : Fin 32 → Fin 32 → Cell → Cell) (s : State) : TurnKeeps s (s.paint f) := by
  have hcam : ∀ d, (s.paint f).cam d = s.cam d := fun d => State.paint_cam ..
  refine ⟨?_, ?_, ?_, State.paint_timer .., State.paint_setp .., State.paint_port .., fun d => by rw [hcam], fun d => by rw [hcam], fun d => by rw [hcam]; exact id⟩
  all_goals unfold State.paint
  all_goals rfl

theorem flag_keeps (b : BitVec 12) (s : State) : TurnKeeps s (s.flag b) := ⟨rfl, rfl, rfl, rfl, rfl, rfl, fun _ => rfl, fun _ => rfl, fun _ => id⟩

theorem recordResult_keeps (c : Cam) (tag : BitVec 8) (kind : BitVec 4) (code : Code) (detail : BitVec 16) (s : State) :
    TurnKeeps s (recordResult c tag kind code detail s) := by
  unfold recordResult
  exact (modCam_keeps c _ s rfl rfl id).trans (flag_keeps ..)

theorem endActive_keeps (c : Cam) (code : Code) (detail : BitVec 16) (s : State) : TurnKeeps s (endActive c code detail s) := by
  unfold endActive
  dsimp only
  split
  · exact (recordResult_keeps ..).trans (modCam_keeps c _ _ rfl rfl fun _ => rfl)
  · exact modCam_keeps c _ _ rfl rfl fun _ => rfl

theorem beginMove_keeps (c : Cam) (s : State) : TurnKeeps s (beginMove c s) := modCam_keeps c _ s rfl rfl fun _ => rfl

theorem tryClaim_keeps (c : Cam) (s : State) : TurnKeeps s (tryClaim c s).1 := by
  obtain ⟨_, h⟩ | ⟨r, _, ⟨_, h⟩ | ⟨_, _, h⟩ | ⟨_, _, h⟩⟩ := tryClaim_cases c s <;> rw [h]
  · exact .refl s
  · exact endActive_keeps ..
  · exact .refl s
  · exact ((paint_keeps _ s).trans (modCam_keeps c _ _ rfl rfl id)).trans (beginMove_keeps ..)

theorem reasonsChanged_keeps (c : Cam) (s : State) : TurnKeeps s (reasonsChanged c s).1 := by
  unfold reasonsChanged
  dsimp only
  split
  · split
    · exact tryClaim_keeps c s
    · exact beginMove_keeps c s
  · exact .refl s

theorem planActive_keeps (c : Cam) (req : MoveRequest) (s : State) : TurnKeeps s (planActive c req s).1 := by
  unfold planActive
  dsimp only
  split
  · exact endActive_keeps ..
  · exact endActive_keeps ..
  · split
    · exact endActive_keeps ..
    · exact (modCam_keeps c _ s rfl rfl fun _ => rfl).trans (reasonsChanged_keeps c _)

theorem shot_keeps (e : ShotEngine) (s : State) : TurnKeeps s { s with shot := e } :=
  ⟨rfl, rfl, rfl, rfl, rfl, rfl, fun _ => rfl, fun _ => rfl, fun _ => id⟩

theorem takeHeadN_keeps (n : Nat) (c : Cam) (s : State) : TurnKeeps s (takeHeadN n c s) := by
  induction n generalizing s with
  | zero => exact .refl s
  | succ n ih =>
    unfold takeHeadN
    dsimp only
    have htake : ∀ (q : Cue) (rest : List Cue), TurnKeeps s (s.modCam c fun k => { k with queue := rest, active := some q }) :=
      fun q rest => modCam_keeps c _ s rfl rfl id
    split
    · split
      · exact ((htake _ _).trans (modCam_keeps c (fun k => { k with state := .fetching }) _ rfl rfl fun _ => rfl)).trans (shot_keeps ..)
      · split
        · exact ((htake _ _).trans (endActive_keeps ..)).trans (ih _)
        · split
          · exact ((htake _ _).trans (planActive_keeps ..)).trans (ih _)
          · exact (htake _ _).trans (planActive_keeps ..)
    · exact .refl s

theorem takeHead_keeps (c : Cam) (s : State) : TurnKeeps s (takeHead c s) := takeHeadN_keeps ..

theorem foldl_keeps {f : State → Cam → State} (hf : ∀ w d, TurnKeeps w (f w d)) : ∀ (l : List Cam) (s : State), TurnKeeps s (l.foldl f s)
  | [], s => .refl s
  | d :: l, s => (hf s d).trans (foldl_keeps hf l _)

theorem examOne_keeps (s : State) (c : Cam) : TurnKeeps s (examOne s c) := by
  unfold examOne nextHead
  split
  · split
    · exact (tryClaim_keeps c s).trans (takeHead_keeps c _)
    · exact tryClaim_keeps c s
  · exact .refl s

theorem examOne_raises (s : State) (c : Cam) : Raises s (examOne s c) := by
  unfold examOne
  exact raises_ite (nextHead_raises (tryClaim_raises c s)) (.refl s)

theorem releaseExam_keeps (s : State) : TurnKeeps s (releaseExam s) := foldl_keeps examOne_keeps ..

theorem releaseExam_raises (s : State) : Raises s (releaseExam s) := foldl_raises examOne_raises ..

/-! The end of a move before its camera takes its next head (R56, R59, R110) -/

theorem completeMove_eq (c : Cam) (s : State) :
    completeMove c s =
      takeHead c
        (moveOver c (completionCode (s.cam c).plan.detail) ((s.cam c).plan.detail.setWidth 16) (s.cam c).plan.target[floorX]
          (s.cam c).plan.target[floorY] s) := rfl

theorem abandonMove_eq (c : Cam) (s : State) :
    abandonMove c s = takeHead c (moveOver c .abandoned 0 (s.cam c).setpoints[floorX] (s.cam c).setpoints[floorY] s) := rfl

theorem giveBack_keeps (c : Cam) (x y : Int) (s : State) : TurnKeeps s (giveBack c x y s) := by
  unfold giveBack
  dsimp only
  split
  · exact ((paint_keeps _ s).trans (modCam_keeps c _ _ rfl rfl id)).trans (releaseExam_keeps _)
  · exact .refl s

theorem giveBack_raises (c : Cam) (x y : Int) (s : State) : Raises s (giveBack c x y s) := by
  unfold giveBack
  dsimp only
  exact raises_ite (((paint_raises _ s).trans (modCam_raises c _ _)).trans (releaseExam_raises _)) (.refl s)

theorem moveOver_keeps (c : Cam) (code : Code) (detail : BitVec 16) (x y : Int) (s : State) : TurnKeeps s (moveOver c code detail x y s) :=
  ((endActive_keeps ..).trans (modCam_keeps c unmarked _ rfl rfl id)).trans (giveBack_keeps ..)

theorem moveOver_raises (c : Cam) (code : Code) (detail : BitVec 16) (x y : Int) (s : State) : Raises s (moveOver c code detail x y s) :=
  ((endActive_raises ..).trans (modCam_raises c unmarked _)).trans (giveBack_raises ..)

theorem takeHead_raises (c : Cam) (s : State) : Raises s (takeHead c s) := takeHeadN_raises ..

theorem completeMove_keeps (c : Cam) (s : State) : TurnKeeps s (completeMove c s) := (moveOver_keeps ..).trans (takeHead_keeps ..)

theorem abandonMove_keeps (c : Cam) (s : State) : TurnKeeps s (abandonMove c s) := (moveOver_keeps ..).trans (takeHead_keeps ..)

theorem completeMove_raises (c : Cam) (s : State) : Raises s (completeMove c s) := (moveOver_raises ..).trans (takeHead_raises ..)

theorem abandonMove_raises (c : Cam) (s : State) : Raises s (abandonMove c s) := (moveOver_raises ..).trans (takeHead_raises ..)

theorem moveOver_fixed (hk : (s.cam c).cfg.kind ≠ some .roaming) :
    moveOver c code detail x y s = (endActive c code detail s).modCam c unmarked := by
  refine giveBack_of_fixed ?_ x y
  rw [cam_modCam_self]
  show isRoaming _ = false
  rw [isRoaming, show (unmarked ((endActive c code detail s).cam c)).cfg = (s.cam c).cfg from endActive_cfg ..]
  simpa using hk

/-- The camera whose move is over, before it takes its next head. -/
def moveDone (f : FloorMap) (q : Cue) (code : Code) (detail : BitVec 16) (x y : Int) (k : Camera) : Camera :=
  { cueEnded q code detail k with
    halt := false, abandon := false
    held := if k.cfg.kind = some .roaming then some (parkedRect f k.cfg.margin x y) else k.held }

theorem endActive_cam (ha : (s.cam c).active = some q) (code : Code) (detail : BitVec 16) :
    (endActive c code detail s).cam c = cueEnded q code detail (s.cam c) := by
  rw [endActive_eq ha, State.flag_cam, cam_modCam_self]

theorem moveOver_cam (ha : (s.cam c).active = some q) (code : Code) (detail : BitVec 16) (x y : Int) :
    (moveOver c code detail x y s).cam c = moveDone s.floor q code detail x y (s.cam c) := by
  by_cases hk : (s.cam c).cfg.kind = some .roaming
  · rw [(moveOver_roaming hk ..).2, endActive_cam ha, moveDone, if_pos hk]
    rfl
  · rw [moveOver_fixed hk, cam_modCam_self, endActive_cam ha, moveDone, if_neg hk]
    rfl

/-- A camera whose move is over is IDLE, its queue as it was. -/
theorem moveOver_idle (c : Cam) (code : Code) (detail : BitVec 16) (x y : Int) (s : State) :
    ((moveOver c code detail x y s).cam c).state = .idle ∧ ((moveOver c code detail x y s).cam c).queue = (s.cam c).queue := by
  have hidle := endActive_state c code detail s
  have hqueue := endActive_queue c code detail s
  by_cases hk : (s.cam c).cfg.kind = some .roaming
  · rw [(moveOver_roaming hk ..).2]
    exact ⟨hidle, hqueue⟩
  · rw [moveOver_fixed hk, cam_modCam_self]
    exact ⟨hidle, hqueue⟩

/-- A camera whose move is over takes its next head, here a GOTO (R56, R59, R48). -/
theorem moveOver_headTaken (ha : (s.cam c).active = some q) (hg : GotoNext (s.cam c)) (code : Code) (detail : BitVec 16) (p : Positions) :
    (takeHead c (moveOver c code detail p[floorX] p[floorY] s)).cam c = moveEnded s.floor q code detail p (s.cam c) := by
  have hcam := moveOver_cam ha code detail p[floorX] p[floorY]
  rw [takeHead_cam (by rw [hcam]; rfl) (by rw [hcam]; exact hg), hcam]
  rfl

/-! A head that takes no floor (R48, R50, R104) -/

/-- The floor stands, and the camera, which is not ROAMING, does not wait for it. -/
structure TakesNoFloor (c : Cam) (s t : State) : Prop where
  floor : t.floor = s.floor
  out : inWaitingSet (t.cam c) = false
  fixed : (t.cam c).cfg.kind ≠ some .roaming

theorem endActive_noFloor (h : (s.cam c).cfg.kind ≠ some .roaming) (code : Code) (detail : BitVec 16) :
    TakesNoFloor c s (endActive c code detail s) := by
  refine ⟨(endActive_beside ..).floor, ?_, ?_⟩
  · rw [inWaitingSet, endActive_state]; rfl
  · rw [endActive_cfg]; exact h

theorem TakesNoFloor.trans (h : TakesNoFloor c s t) (k : TakesNoFloor c t u) : TakesNoFloor c s u := ⟨k.floor.trans h.floor, k.out, k.fixed⟩

theorem inWaitingSet_of_other (h : k.waitStop = true ∨ k.waitTally = true) : inWaitingSet k = false := by
  rcases h with h | h <;> simp [inWaitingSet, h]

/-- A planned cue whose claim is not to be tried. -/
theorem reasonsChanged_noFloor (h : (s.cam c).cfg.kind ≠ some .roaming) (hw : (s.cam c).state = .waiting)
    (hf : (s.cam c).waitFloor = false) : TakesNoFloor c s (reasonsChanged c s).1 := by
  by_cases hs : (s.cam c).waitStop = true ∨ (s.cam c).waitTally = true
  · rw [reasonsChanged_waits hs]
    exact ⟨rfl, inWaitingSet_of_other hs, h⟩
  · obtain ⟨hstop, htally⟩ := not_or.mp hs
    rw [Bool.not_eq_true] at hstop htally
    rw [reasonsChanged_begins hw hstop htally hf]
    have hcam : (beginMove c s).cam c = _ := cam_modCam_self c _ s
    refine ⟨rfl, ?_, ?_⟩
    · rw [hcam]; rfl
    · rw [hcam]; exact h

theorem planActive_noFloor (h : (s.cam c).cfg.kind ≠ some .roaming) (req : MoveRequest) : TakesNoFloor c s (planActive c req s).1 := by
  cases hp : planMove (s.cam c).cfg (s.cam c).setpoints req with
  | noTravel d => rw [planActive_noTravel hp]; exact endActive_noFloor h ..
  | tooLong => rw [planActive_tooLong hp]; exact endActive_noFloor h ..
  | plan pl =>
    rw [planActive_plan hp]
    split
    · exact endActive_noFloor h ..
    · have hcam := cam_modCam_self c (writePlan pl (planClaim c pl s).1 (planClaim c pl s).2.2) s
      have hwritten : TakesNoFloor c (s.modCam c (writePlan pl (planClaim c pl s).1 (planClaim c pl s).2.2))
          (reasonsChanged c (s.modCam c (writePlan pl (planClaim c pl s).1 (planClaim c pl s).2.2))).1 := by
        refine reasonsChanged_noFloor ?_ ?_ ?_
        · rw [hcam]; exact h
        · rw [hcam]; rfl
        · rw [hcam, planClaim_fixed h]
          rfl
      exact ⟨hwritten.floor, hwritten.out, hwritten.fixed⟩

theorem takeHeadN_noFloor (n : Nat) : ∀ s : State, (s.cam c).cfg.kind ≠ some .roaming → inWaitingSet (s.cam c) = false → TakesNoFloor c s (takeHeadN n c s) := by
  induction n with
  | zero => exact fun s h hw => ⟨rfl, hw, h⟩
  | succ n ih =>
    intro s h hw
    unfold takeHeadN
    dsimp only
    split
    · next q rest _ _ =>
      have hcam := cam_modCam_self c (fun k => { k with queue := rest, active := some q }) s
      have htaken : ((s.modCam c fun k => { k with queue := rest, active := some q }).cam c).cfg.kind ≠ some .roaming := by rw [hcam]; exact h
      have hfloor : (s.modCam c fun k => { k with queue := rest, active := some q }).floor = s.floor := rfl
      generalize (s.modCam c fun k => { k with queue := rest, active := some q }) = v at htaken hfloor
      have hlater : ∀ {w}, TakesNoFloor c v w → TakesNoFloor c s w := fun hx => ⟨hx.floor.trans hfloor, hx.out, hx.fixed⟩
      split
      · have hfetch := cam_modCam_self c (fun k => { k with state := .fetching }) v
        refine ⟨hfloor, ?_, ?_⟩
        · exact (congrArg inWaitingSet hfetch).trans rfl
        · exact fun h => htaken ((congrArg (fun k : Camera => k.cfg.kind) hfetch).symm.trans h)
      · split
        · have hend := endActive_noFloor htaken .stackEmpty 0
          exact hlater (hend.trans (ih _ hend.fixed hend.out))
        · have hplan := planActive_noFloor htaken
          split
          · exact hlater ((hplan _).trans (ih _ (hplan _).fixed (hplan _).out))
          · exact hlater (hplan _)
    · exact ⟨rfl, hw, h⟩

/-- A move that is over and frees no floor, with the head its camera takes. -/
theorem moveOver_noFloor (hk : (s.cam c).cfg.kind ≠ some .roaming) (code : Code) (detail : BitVec 16) (x y : Int) :
    TakesNoFloor c s (takeHead c (moveOver c code detail x y s)) := by
  have hend := endActive_noFloor hk code detail
  have hcam := cam_modCam_self c unmarked (endActive c code detail s)
  have hover : TakesNoFloor c s (moveOver c code detail x y s) := by
    rw [moveOver_fixed hk]
    refine ⟨hend.floor, ?_, ?_⟩
    · rw [hcam]; exact hend.out
    · rw [hcam]; exact hend.fixed
  exact hover.trans (takeHeadN_noFloor _ _ hover.fixed hover.out)

theorem headTaken_cases (k : Camera) : headTaken k = k ∨ (headTaken k).state = .fetching := by
  unfold headTaken
  split
  · exact .inl rfl
  · exact .inr rfl

theorem headTaken_out (h : k.state = .idle) : inWaitingSet (headTaken k) = false := by
  rcases headTaken_cases k with hk | hk
  · rw [hk, inWaitingSet, h]; rfl
  · rw [inWaitingSet, hk]; rfl

/-- A ROAMING move that is over and gives back floor, with the GOTO its camera takes. -/
theorem moveOver_gives (hk : (s.cam c).cfg.kind = some .roaming) (hg : GotoNext (s.cam c)) (code : Code) (detail : BitVec 16) (x y : Int) :
    Examines s c (cellsGivenBack s.floor c (parkedRect s.floor (s.cam c).cfg.margin x y)) (takeHead c (moveOver c code detail x y s)) ∧
      inWaitingSet ((takeHead c (moveOver c code detail x y s)).cam c) = false := by
  obtain ⟨hidle, hqueue⟩ := moveOver_idle c code detail x y s
  have hnext : GotoNext ((moveOver c code detail x y s).cam c) := by rw [GotoNext, hqueue]; exact hg
  refine ⟨(moveOver_roaming hk code detail x y).1.later ⟨(takeHead_touches c _).others, takeHead_floor hidle hnext⟩, ?_⟩
  rw [takeHead_cam hidle hnext]
  exact headTaken_out hidle

end Sys2Proof.Machine

/-! The cameras' turns at one event, with the release examinations they bring (R107, R110). -/

namespace Sys2Proof.Machine

variable {s w : State} {base : Cam → Camera} {own : Camera → Camera → Prop} {gives stays : Cam → Prop} {parked : Cam → Rect}
  {f : State → Cam → State} {d x : Cam} {k k' : Camera} {l : List Cam} {made rs : List ExamRound} {r : ExamRound} {e : ExamTry}
  {g h : Grid Cell} {waits : Cam → Cam → Prop}

/-! What the examinations of the event have made of a camera -/

/-- What the examinations made so far have left of camera x: as it stood where each try was denied, and else as the try that was not has left it. -/
structure Left (base : Cam → Camera) (made : List ExamRound) (x : Cam) (k : Camera) : Prop where
  denied : DeniedIn made x → k = base x
  tried : ∀ r ∈ made, ∀ e ∈ r.tries, e.cam = x → e.outcome ≠ .denied → k = cameraTried e.cue e.claim (base x) e.outcome

/-- A camera no longer in the set of waiting cameras after a try that was not denied. -/
def AfterTry (k : Camera) : Prop := k.state = .idle ∨ k.state = .fetching ∨ k.state = .moving

theorem AfterTry.out (h : AfterTry k) : inWaitingSet k = false := by
  rcases h with h | h | h <;> rw [inWaitingSet, h] <;> rfl

theorem cameraTried_afterTry {q : Cue} {r : Rect} {o : Tried} (h : o ≠ .denied) : AfterTry (cameraTried q r k o) := by
  cases o with
  | keepOut =>
    rcases headTaken_cases (cueEnded q .keepOut 0 k) with hk | hk
    · exact .inl (by rw [cameraTried, hk]; rfl)
    · exact .inr (.inl hk)
  | denied => exact absurd rfl h
  | granted => exact .inr (.inr rfl)

theorem not_deniedIn (h : ¬DeniedIn made x) : ∃ r ∈ made, ∃ e ∈ r.tries, e.cam = x ∧ e.outcome ≠ .denied := by
  unfold DeniedIn at h
  push Not at h
  exact h

theorem Left.cases (h : Left base made x k) : DeniedIn made x ∧ k = base x ∨ ¬DeniedIn made x ∧ AfterTry k := by
  by_cases hd : DeniedIn made x
  · exact .inl ⟨hd, h.denied hd⟩
  · obtain ⟨r, hr, e, he, hx, ho⟩ := not_deniedIn hd
    refine .inr ⟨hd, ?_⟩
    rw [h.tried r hr e he hx ho]
    exact cameraTried_afterTry ho

/-- A round that does not try the camera. -/
theorem Left.passed (h : Left base made x k) (hr : ∀ e ∈ r.tries, e.cam ≠ x) : Left base (made ++ [r]) x k := by
  refine ⟨fun hd => h.denied fun r' hr' => hd r' (List.mem_append_left _ hr'), fun r' hr' e he hx ho => ?_⟩
  rcases List.mem_append.mp hr' with hr' | hr'
  · exact h.tried r' hr' e he hx ho
  · rw [List.mem_singleton.mp hr'] at he
    exact absurd hx (hr e he)

/-- A round that tries the camera, which has been denied till then. -/
theorem Left.takes (hd : DeniedIn made e.cam) (he : e ∈ r.tries) (hu : ∀ e' ∈ r.tries, e'.cam = e.cam → e' = e) :
    Left base (made ++ [r]) e.cam (cameraTried e.cue e.claim (base e.cam) e.outcome) := by
  refine ⟨fun hall => ?_, fun r' hr' e' he' hx ho => ?_⟩
  · rw [hall r (List.mem_append_right _ List.mem_cons_self) e he rfl]
    rfl
  · rcases List.mem_append.mp hr' with hr' | hr'
    · exact absurd (hd r' hr' e' he' hx) ho
    · rw [List.mem_singleton.mp hr'] at he'
      rw [hu e' he' hx]

/-! The rules of a turn -/

/-- How a camera takes its turn f: the cameras that give floor back bring an examination, the others leave the floor, and a camera that waited
at the event is changed as `own` says. `stays` says of a waiting camera that it still waits after its turn. -/
structure TurnLaw (s : State) (base : Cam → Camera) (own : Camera → Camera → Prop) (gives stays : Cam → Prop) (parked : Cam → Rect)
    (f : State → Cam → State) : Prop where
  keeps : ∀ w d, TurnKeeps w (f w d)
  fixed : ∀ d, gives d → inWaitingSet (base d) = false
  examines : ∀ w d, gives d → w.cam d = base d → w.floor = { s.floor with cells := w.floor.cells } →
    Examines w d (cellsGivenBack w.floor d (parked d)) (f w d) ∧ inWaitingSet ((f w d).cam d) = false
  alone : ∀ w d, ¬gives d → inWaitingSet (base d) = false → w.cam d = base d → Beside d w (f w d) ∧ inWaitingSet ((f w d).cam d) = false
  waiting : ∀ w d, inWaitingSet (base d) = true → w.cam d = base d ∨ AfterTry (w.cam d) → Beside d w (f w d) ∧ own (w.cam d) ((f w d).cam d)
  out : ∀ k k', AfterTry k → own k k' → inWaitingSet k' = false
  set : ∀ x k, inWaitingSet (base x) = true → own (base x) k → (inWaitingSet k = true ↔ stays x)
  late : ∀ x k, inWaitingSet (base x) = true → own (base x) k → inWaitingSet k = true → k = base x ∧ ∀ k', AfterTry k' → own k' k'

/-- Where the event stands with the cameras l still to take their turns, after the examinations made. -/
structure Turning (base : Cam → Camera) (own : Camera → Camera → Prop) (l : List Cam) (made : List ExamRound) (w : State) : Prop where
  next : ∀ x ∈ l, Left base made x (w.cam x)
  past : ∀ x, x ∉ l → inWaitingSet (base x) = true → ∃ k, Left base made x k ∧ own k (w.cam x)
  out : ∀ x, x ∉ l → inWaitingSet (base x) = false → inWaitingSet (w.cam x) = false
  tried : ∀ r ∈ made, ∀ e ∈ r.tries, inWaitingSet (base e.cam) = true

theorem Turning.deniedIn (ht : Turning base own l made w) (hx : inWaitingSet (base x) = false) : DeniedIn made x := by
  intro r hr e he h
  have hw := ht.tried r hr e he
  rw [h, hx] at hw
  cases hw

/-- The cameras of the set at the turn of camera d. -/
theorem Turning.set (hlaw : TurnLaw s base own gives stays parked f) (ht : Turning base own (d :: l) made w) (hl : ∀ x, x ∈ l ↔ d < x) (hx : x ≠ d) :
    inWaitingSet (w.cam x) = true ↔ inWaitingSet (base x) = true ∧ DeniedIn made x ∧ (d < x ∨ stays x) := by
  cases hb : inWaitingSet (base x) with
  | false =>
    refine ⟨fun h => absurd h ?_, fun h => absurd h.1 nofun⟩
    rw [Bool.not_eq_true]
    by_cases hm : x ∈ l
    · rw [(ht.next x (List.mem_cons_of_mem d hm)).denied (ht.deniedIn hb)]
      exact hb
    · exact ht.out x (fun hc => (List.mem_cons.mp hc).elim hx hm) hb
  | true =>
    simp only [true_and]
    by_cases hm : x ∈ l
    · rcases (ht.next x (List.mem_cons_of_mem d hm)).cases with ⟨hd, hk⟩ | ⟨hd, hk⟩
      · rw [hk, hb]
        exact ⟨fun _ => ⟨hd, .inl ((hl x).mp hm)⟩, fun _ => rfl⟩
      · rw [hk.out]
        exact ⟨nofun, fun h => absurd h.1 hd⟩
    · obtain ⟨k, hleft, hown⟩ := ht.past x (fun hc => (List.mem_cons.mp hc).elim hx hm) hb
      have hlt : ¬d < x := fun h => hm ((hl x).mpr h)
      rcases hleft.cases with ⟨hd, hk⟩ | ⟨hd, hk⟩
      · rw [hk] at hown
        rw [hlaw.set x _ hb hown]
        exact ⟨fun h => ⟨hd, .inr h⟩, fun h => h.2.resolve_left hlt⟩
      · rw [hlaw.out _ _ hk hown]
        exact ⟨nofun, fun h => absurd h.1 hd⟩

/-! One turn -/

/-- A turn that leaves the floor. -/
theorem Turning.plain (hlaw : TurnLaw s base own gives stays parked f) (ht : Turning base own (d :: l) made w) (hl : ∀ x, x ∈ l ↔ d < x) (hd : ¬gives d) :
    Turning base own l made (f w d) ∧ (f w d).floor.cells = w.floor.cells := by
  have hleft := ht.next d List.mem_cons_self
  have hturn : Beside d w (f w d) ∧ (inWaitingSet (base d) = true → own (w.cam d) ((f w d).cam d)) ∧
      (inWaitingSet (base d) = false → inWaitingSet ((f w d).cam d) = false) := by
    cases hb : inWaitingSet (base d) with
    | false =>
      obtain ⟨hbeside, hout⟩ := hlaw.alone w d hd hb (hleft.denied (ht.deniedIn hb))
      exact ⟨hbeside, nofun, fun _ => hout⟩
    | true =>
      obtain ⟨hbeside, hown⟩ := hlaw.waiting w d hb (hleft.cases.imp (·.2) (·.2))
      exact ⟨hbeside, fun _ => hown, nofun⟩
  obtain ⟨hbeside, hown, hout⟩ := hturn
  have hnot : ∀ x, x ∉ l → x ≠ d → x ∉ d :: l := fun x hx hne hc => (List.mem_cons.mp hc).elim hne hx
  refine ⟨⟨fun x hx => ?_, fun x hx hb => ?_, fun x hx hb => ?_, ht.tried⟩, congrArg FloorMap.cells hbeside.floor⟩
  · rw [hbeside.others x (ne_of_gt ((hl x).mp hx))]
    exact ht.next x (List.mem_cons_of_mem d hx)
  · by_cases hxd : x = d
    · subst hxd
      exact ⟨_, hleft, hown hb⟩
    · rw [hbeside.others x hxd]
      exact ht.past x (hnot x hx hxd) hb
  · by_cases hxd : x = d
    · subst hxd
      exact hout hb
    · rw [hbeside.others x hxd]
      exact ht.out x (hnot x hx hxd) hb

/-- A camera that still is in the set stands as at the event, and its turn, if it has had it, was none. -/
theorem Turning.stands (hlaw : TurnLaw s base own gives stays parked f) (ht : Turning base own (d :: l) made w) (hl : ∀ x, x ∈ l ↔ d < x) (hx : x ≠ d)
    (hset : inWaitingSet (w.cam x) = true) :
    w.cam x = base x ∧ DeniedIn made x ∧ (x ∉ l → ∀ k, AfterTry k ∨ k = base x → own k k) := by
  obtain ⟨hb, hdenied, -⟩ := (ht.set hlaw hl hx).mp hset
  by_cases hm : x ∈ l
  · exact ⟨(ht.next x (List.mem_cons_of_mem d hm)).denied hdenied, hdenied, fun h => absurd hm h⟩
  · obtain ⟨k, hleft, hown⟩ := ht.past x (fun hc => (List.mem_cons.mp hc).elim hx hm) hb
    rw [hleft.denied hdenied] at hown
    obtain ⟨heq, hlate⟩ := hlaw.late x _ hb hown hset
    refine ⟨heq, hdenied, fun _ k hk => hk.elim (hlate k) fun hk => ?_⟩
    rw [hk]
    rwa [heq] at hown

/-- A turn that gives floor back, with the round of tries it brings. -/
theorem Turning.examined (hlaw : TurnLaw s base own gives stays parked f) (ht : Turning base own (d :: l) made w) (hl : ∀ x, x ∈ l ↔ d < x)
    (hd : gives d) (hmap : w.floor = { s.floor with cells := w.floor.cells })
    (hset : ∀ x, (inWaitingSet (base x) = true ∧ x ≠ d ∧ (d < x ∨ stays x)) ∧ DeniedIn made x ↔ ∃ e ∈ r.tries, e.cam = x)
    (hp : r.tries.Pairwise ExamBefore)
    (ha : ∀ e ∈ r.tries, (base e.cam).active = some e.cue ∧ (base e.cam).claim = some e.claim ∧ GotoNext (base e.cam))
    (hg : TriesGive (cellsGivenBack w.floor d (parked d)) r.tries h) :
    Turning base own l (made ++ [r]) (f w d) ∧ (f w d).floor.cells = h := by
  have hbd := hlaw.fixed d hd
  obtain ⟨hex, hout⟩ := hlaw.examines w d hd ((ht.next d List.mem_cons_self).denied (ht.deniedIn hbd)) hmap
  have hwset : ∀ x, x ≠ d → (inWaitingSet (w.cam x) = true ↔ ∃ e ∈ r.tries, e.cam = x) := fun x hx => by
    rw [ht.set hlaw hl hx, ← hset]
    exact ⟨fun ⟨hb, hden, h⟩ => ⟨⟨hb, hx, h⟩, hden⟩, fun ⟨⟨hb, _, h⟩, hden⟩ => ⟨hb, hden, h⟩⟩
  have hne : ∀ e ∈ r.tries, e.cam ≠ d := fun e he => ((hset e.cam).mpr ⟨e, he, rfl⟩).1.2.1
  have hstands : ∀ e ∈ r.tries, w.cam e.cam = base e.cam ∧ DeniedIn made e.cam ∧ (e.cam ∉ l → ∀ k, AfterTry k ∨ k = base e.cam → own k k) :=
    fun e he => ht.stands hlaw hl (hne e he) ((hwset _ (hne e he)).mpr ⟨e, he, rfl⟩)
  have hawaits : ∀ e ∈ r.tries, Awaits w e := fun e he => by
    obtain ⟨hactive, hclaim, hnext⟩ := ha e he
    have hcam := (hstands e he).1
    exact ⟨(hwset _ (hne e he)).mpr ⟨e, he, rfl⟩, by rw [hcam]; exact hactive, by rw [hcam]; exact hclaim, by rw [hcam]; exact hnext⟩
  have hunique : ∀ e ∈ r.tries, ∀ e' ∈ r.tries, e'.cam = e.cam → e' = e := fun e he e' he' heq =>
    List.inj_on_of_nodup_map (tries_nodup hp hawaits) he' he heq
  obtain ⟨hcells, htried, hothers⟩ := hex.leaves hwset hp
    (fun e he => ⟨hne e he, (hawaits e he).active, (hawaits e he).claim, (hawaits e he).next⟩) hg
  have hnow : ∀ e ∈ r.tries, (f w d).cam e.cam = cameraTried e.cue e.claim (base e.cam) e.outcome := fun e he => by
    rw [htried e he, (hstands e he).1]
  have htakes : ∀ e ∈ r.tries, Left base (made ++ [r]) e.cam ((f w d).cam e.cam) := fun e he => by
    rw [hnow e he]
    exact .takes (hstands e he).2.1 he fun e' he' heq => hunique e he e' he' heq
  have hpassed : ∀ x, x ≠ d → (∀ e ∈ r.tries, e.cam ≠ x) → (f w d).cam x = w.cam x := fun x hx hno => by
    refine hothers x hx ?_
    rw [Bool.eq_false_iff, ne_eq, hwset x hx]
    exact fun ⟨e, he, heq⟩ => hno e he heq
  have hor : ∀ x, (∃ e ∈ r.tries, e.cam = x) ∨ ∀ e ∈ r.tries, e.cam ≠ x := fun x => by
    by_cases hx : ∃ e ∈ r.tries, e.cam = x
    · exact .inl hx
    · exact .inr fun e he heq => hx ⟨e, he, heq⟩
  have hnot : ∀ x, x ∉ l → x ≠ d → x ∉ d :: l := fun x hx hne hc => (List.mem_cons.mp hc).elim hne hx
  refine ⟨⟨fun x hx => ?_, fun x hx hb => ?_, fun x hx hb => ?_, fun r' hr' e he => ?_⟩, hcells⟩
  · rcases hor x with ⟨e, he, rfl⟩ | hno
    · exact htakes e he
    · rw [hpassed x (ne_of_gt ((hl x).mp hx)) hno]
      exact (ht.next x (List.mem_cons_of_mem d hx)).passed hno
  · have hxd : x ≠ d := fun h => by rw [h, hbd] at hb; cases hb
    rcases hor x with ⟨e, he, rfl⟩ | hno
    · refine ⟨_, htakes e he, (hstands e he).2.2 hx _ ?_⟩
      rw [hnow e he]
      by_cases ho : e.outcome = .denied
      · exact .inr (by rw [ho]; rfl)
      · exact .inl (cameraTried_afterTry ho)
    · obtain ⟨k, hleft, hown⟩ := ht.past x (hnot x hx hxd) hb
      rw [hpassed x hxd hno]
      exact ⟨k, hleft.passed hno, hown⟩
  · by_cases hxd : x = d
    · rw [hxd]
      exact hout
    · have hno : ∀ e ∈ r.tries, e.cam ≠ x := fun e he heq => by
        have hw := ((hset x).mpr ⟨e, he, heq⟩).1.1
        rw [hb] at hw
        cases hw
      rw [hpassed x hxd hno]
      exact ht.out x (hnot x hx hxd) hb
  · rcases List.mem_append.mp hr' with hr' | hr'
    · exact ht.tried r' hr' e he
    · rw [List.mem_singleton.mp hr'] at he
      exact ((hset e.cam).mpr ⟨e, he, rfl⟩).1.1

/-! All turns -/

/-- The rounds of an event whose cameras l still have to take their turns. -/
structure RoundsOf (s : State) (base : Cam → Camera) (gives stays : Cam → Prop) (parked : Cam → Rect) (waits : Cam → Cam → Prop) (l : List Cam)
    (made rs : List ExamRound) (g h : Grid Cell) : Prop where
  cams : ∀ d ∈ l, gives d ↔ ∃ r ∈ rs, r.cam = d
  among : ∀ r ∈ rs, r.cam ∈ l
  ordered : rs.Pairwise (·.cam < ·.cam)
  sets : ∀ d x, gives d → (waits d x ↔ inWaitingSet (base x) = true ∧ x ≠ d ∧ (d < x ∨ stays x))
  cues : ∀ r ∈ rs, ∀ e ∈ r.tries, (base e.cam).active = some e.cue ∧ (base e.cam).claim = some e.claim ∧ GotoNext (base e.cam)
  give : RoundsGive s.floor parked waits made g rs h

/-- All cameras take their turns one after another (R107, R110). -/
theorem turns_leave (hlaw : TurnLaw s base own gives stays parked f) : ∀ (l : List Cam) (w : State) (made rs : List ExamRound),
    l.Pairwise (· < ·) → (∀ x ∈ l, ∀ y, x < y → y ∈ l) → w.floor = { s.floor with cells := w.floor.cells } → Turning base own l made w →
    RoundsOf s base gives stays parked waits l made rs w.floor.cells h →
    Turning base own [] (made ++ rs) (l.foldl f w) ∧ (l.foldl f w).floor.cells = h
  | [], w, made, rs, _, _, _, ht, hrs => by
    cases rs with
    | nil => exact ⟨by rw [List.append_nil]; exact ht, hrs.give.symm⟩
    | cons r rs => exact absurd (hrs.among r List.mem_cons_self) List.not_mem_nil
  | d :: l, w, made, rs, hpair, hup, hmap, ht, hrs => by
    obtain ⟨hlt, hpair'⟩ := List.pairwise_cons.mp hpair
    have hl : ∀ x, x ∈ l ↔ d < x := fun x =>
      ⟨hlt x, fun h => (List.mem_cons.mp (hup d List.mem_cons_self x h)).resolve_left (ne_of_gt h)⟩
    have hup' : ∀ x ∈ l, ∀ y, x < y → y ∈ l := fun x hx y hxy => (hl y).mpr (lt_trans (hlt x hx) hxy)
    have hmap' : (f w d).floor = { s.floor with cells := (f w d).floor.cells } := by rw [(hlaw.keeps w d).map, hmap]
    by_cases hd : gives d
    · cases rs with
      | nil =>
        obtain ⟨r, hr, -⟩ := (hrs.cams d List.mem_cons_self).mp hd
        cases hr
      | cons r rs =>
        obtain ⟨hafter, hordered⟩ := List.pairwise_cons.mp hrs.ordered
        have hr : r.cam = d := by
          obtain ⟨r', hr', hcam⟩ := (hrs.cams d List.mem_cons_self).mp hd
          rcases List.mem_cons.mp hr' with rfl | hr'
          · exact hcam
          · have hless := hafter r' hr'
            rw [hcam] at hless
            rcases List.mem_cons.mp (hrs.among r List.mem_cons_self) with h | h
            · exact h
            · exact absurd (hlt _ h) (lt_asymm hless)
        obtain ⟨hset, hp, m, hg, hrest⟩ := hrs.give
        rw [hr] at hset hg
        obtain ⟨ht', hcells⟩ := ht.examined hlaw hl hd hmap
          (fun x => by rw [← hset x, hrs.sets d x hd]) hp (hrs.cues r List.mem_cons_self) hg
        have hnext := turns_leave hlaw l (f w d) (made ++ [r]) rs hpair' hup' hmap' ht'
          { cams := fun x hx => by
              rw [hrs.cams x (List.mem_cons_of_mem d hx)]
              refine ⟨fun ⟨r', hr', hcam⟩ => ?_, fun ⟨r', hr', hcam⟩ => ⟨r', List.mem_cons_of_mem r hr', hcam⟩⟩
              rcases List.mem_cons.mp hr' with rfl | hr'
              · exact absurd ((hl x).mp hx) (by rw [← hcam, hr]; exact lt_irrefl d)
              · exact ⟨r', hr', hcam⟩
            among := fun r' hr' => (hl _).mpr (hr ▸ hafter r' hr')
            ordered := hordered, sets := hrs.sets
            cues := fun r' hr' => hrs.cues r' (List.mem_cons_of_mem r hr')
            give := by rw [hcells]; exact hrest }
        rw [List.append_assoc] at hnext
        exact hnext
    · obtain ⟨ht', hcells⟩ := ht.plain hlaw hl hd
      refine turns_leave hlaw l (f w d) made rs hpair' hup' hmap' ht'
        { cams := fun x hx => hrs.cams x (List.mem_cons_of_mem d hx)
          among := fun r hr => ?_
          ordered := hrs.ordered, sets := hrs.sets, cues := hrs.cues
          give := by rw [hcells]; exact hrs.give }
      rcases List.mem_cons.mp (hrs.among r hr) with h | h
      · exact absurd ((hrs.cams d List.mem_cons_self).mpr ⟨r, hr, h⟩) hd
      · exact h

/-- All eight cameras take their turns, none examined before. -/
theorem allTurns_leave (hlaw : TurnLaw s base own gives stays parked f) (hcam : ∀ x, w.cam x = base x)
    (hmap : w.floor = { s.floor with cells := w.floor.cells }) (hrs : RoundsOf s base gives stays parked waits allCams [] rs w.floor.cells h) :
    Turning base own [] rs (allCams.foldl f w) ∧ (allCams.foldl f w).floor.cells = h := by
  refine turns_leave hlaw allCams w [] rs (List.pairwise_lt_finRange 8) (fun _ _ y _ => List.mem_finRange y) hmap ?_ hrs
  exact
    ⟨fun x _ => ⟨fun _ => hcam x, nofun⟩, fun x hx => absurd (List.mem_finRange x) hx, fun x hx => absurd (List.mem_finRange x) hx, nofun⟩

end Sys2Proof.Machine

/-! The stop line (R60, R146, R147). -/

namespace Sys2Proof.Machine

variable {s t u v w : State} {c d x : Cam} {q : Cue} {k k' : Camera} {f : Camera → Camera} {l : List Cam} {g h : Grid Cell}
  {rounds : List ExamRound}

/-! Turns that spare the cameras that do not wait -/

section

variable {f : State → Cam → State}

theorem foldl_sparing (hf : ∀ w e, Spares e w (f w e)) : ∀ (l : List Cam) (s : State), c ∉ l → inWaitingSet (s.cam c) = false →
    (l.foldl f s).cam c = s.cam c
  | [], _, _, _ => rfl
  | e :: l, s, h, hc => by
    obtain ⟨hne, hl⟩ := not_or.mp (List.mem_cons.not.mp h)
    have hstep := hf s e c hne hc
    rw [List.foldl_cons, foldl_sparing hf l _ hl (by rw [hstep]; exact hc), hstep]

/-- Where each of the cameras takes its turn alone, the others stand. -/
theorem foldl_alone : ∀ (l : List Cam) (s : State), l.Nodup → (∀ e ∈ l, ∀ w, w.cam e = s.cam e → Touches e w (f w e)) → c ∉ l →
    (l.foldl f s).cam c = s.cam c
  | [], _, _, _, _ => rfl
  | e :: l, s, hl, hf, h => by
    obtain ⟨hne, hc⟩ := not_or.mp (List.mem_cons.not.mp h)
    obtain ⟨he, hl⟩ := List.nodup_cons.mp hl
    have hstep := hf e List.mem_cons_self s rfl
    have hlater : ∀ e' ∈ l, ∀ w, w.cam e' = (f s e).cam e' → Touches e' w (f w e') := fun e' he' w hw =>
      hf e' (List.mem_cons_of_mem e he') w (hw.trans (hstep.others e' fun h => he (h ▸ he')))
    rw [List.foldl_cons, foldl_alone l _ hl hlater hc, hstep.others c hne]

/-- The turn of a camera that the turns before it leave, because it does not wait or because they bring no examination; the turns after it leave
it where it does not wait then. -/
theorem allCams_turn (hkeeps : ∀ w e, TurnKeeps w (f w e)) (hf : ∀ w e, Spares e w (f w e)) (s : State)
    (hc : inWaitingSet (s.cam c) = false ∨ ∀ d, d < c → ∀ w, w.cam d = s.cam d → Touches d w (f w d)) :
    ∃ w, w.cam c = s.cam c ∧ TurnKeeps s w ∧ (inWaitingSet ((f w c).cam c) = false → (allCams.foldl f s).cam c = (f w c).cam c) := by
  obtain ⟨l1, l2, hl⟩ := List.append_of_mem (List.mem_finRange c)
  have hpair : (l1 ++ c :: l2).Pairwise (· < ·) := hl ▸ List.pairwise_lt_finRange 8
  obtain ⟨hp1, hp2, hbetween⟩ := List.pairwise_append.mp hpair
  have hbefore : ∀ d ∈ l1, d < c := fun d hd => hbetween d hd c List.mem_cons_self
  have hc1 : c ∉ l1 := fun h => lt_irrefl c (hbefore c h)
  have hc2 : c ∉ l2 := fun h => lt_irrefl c ((List.pairwise_cons.mp hp2).1 c h)
  refine ⟨l1.foldl f s, ?_, foldl_keeps hkeeps l1 s, fun hout => ?_⟩
  · rcases hc with hc | hc
    · exact foldl_sparing hf l1 s hc1 hc
    · exact foldl_alone l1 s (hp1.imp ne_of_lt) (fun e he => hc e (hbefore e he)) hc1
  · rw [show allCams = l1 ++ c :: l2 from hl, List.foldl_append, List.foldl_cons]
    exact foldl_sparing hf l2 _ hc2 hout

end

/-! One camera's turn at the assertion (R60) -/

/-- A camera whose move the assertion slows to its end at once. -/
def stopSlowed (k : Camera) : Camera := { k with stopLatch := true, halt := true, rate := 0, rt := 0 }

/-- The camera is latched, and adds STOP to its reasons. -/
def stopWaits (k : Camera) : Camera := { k with stopLatch := true, waitStop := true }

theorem stopCamera_offline (h : (w.cam c).state = .offline) : stopCamera w c = w := by simp only [stopCamera, h]

theorem stopCamera_adopting (h : (w.cam c).state = .adopting) :
    stopCamera w c = w.modCam c fun k => { k with adoption := k.adoption.map fun ad => { ad with stopSeen := true } } := by
  simp only [stopCamera, h]

theorem stopCamera_latches (h : (w.cam c).state = .idle ∨ (w.cam c).state = .fetching ∨ (w.cam c).state = .halted ∨ (w.cam c).state = .direct) :
    stopCamera w c = w.modCam c fun k => { k with stopLatch := true } := by
  rcases h with h | h | h | h <;> simp only [stopCamera, h]

theorem stopCamera_waiting (h : (w.cam c).state = .waiting) : stopCamera w c = w.modCam c stopWaits := by
  simp only [stopCamera, h]
  rfl

theorem stopCamera_rests (h : (w.cam c).state = .moving ∨ (w.cam c).state = .halting ∧ (w.cam c).abandon = false) :
    stopCamera w c = w.modCam c fun k => { stopSlowed k with state := .halted } := by
  rcases h with h | ⟨h, ha⟩
  · simp only [stopCamera, h]
    exact modCam_congr (reformRate_moving rfl)
  · simp only [stopCamera, h, ha, Bool.false_eq_true, if_false]
    exact modCam_congr (reformRate_moving rfl)

theorem stopCamera_abandons (h : (w.cam c).state = .halting) (ha : (w.cam c).abandon = true) :
    stopCamera w c = abandonMove c (w.modCam c stopSlowed) := by
  simp only [stopCamera, h, ha, if_true]
  refine congrArg (abandonMove c) (modCam_congr ?_)
  rw [reformRate_moving (by rw [h]; rfl)]
  rfl

/-- A turn that changes its camera alone, which then does not wait for floor. -/
structure TurnsAlone (c : Cam) (w t : State) (f : Camera → Camera) : Prop where
  eq : t = w.modCam c f
  cfg : (f (w.cam c)).cfg = (w.cam c).cfg
  bank : (f (w.cam c)).activeBank = (w.cam c).activeBank
  enabled : (f (w.cam c)).state = (w.cam c).state ∨ (f (w.cam c)).state = .halted
  out : inWaitingSet (f (w.cam c)) = false

theorem TurnsAlone.keeps (h : TurnsAlone c w t f) : TurnKeeps w t := by
  rw [h.eq]
  refine modCam_keeps c f w h.cfg h.bank fun hen => ?_
  rcases h.enabled with hst | hst <;> rw [hst]
  · exact hen
  · rfl

/-- A turn at the assertion changes its camera alone, or ends its move. -/
theorem stopCamera_cases (w : State) (c : Cam) :
    (∃ f, TurnsAlone c w (stopCamera w c) f) ∨
      ((w.cam c).state = .halting ∧ (w.cam c).abandon = true ∧ stopCamera w c = abandonMove c (w.modCam c stopSlowed)) := by
  have hstate : (w.cam c).state = .offline ∨ (w.cam c).state = .adopting ∨ (w.cam c).state = .waiting ∨
      ((w.cam c).state = .idle ∨ (w.cam c).state = .fetching ∨ (w.cam c).state = .halted ∨ (w.cam c).state = .direct) ∨
      ((w.cam c).state = .moving ∨ (w.cam c).state = .halting ∧ (w.cam c).abandon = false) ∨
      (w.cam c).state = .halting ∧ (w.cam c).abandon = true := by
    cases (w.cam c).state <;> simp
  rcases hstate with h | h | h | h | h | ⟨h, ha⟩
  · exact .inl ⟨id, by rw [State.modCam_id]; exact stopCamera_offline h, rfl, rfl, .inl rfl, by rw [id, inWaitingSet, h]; rfl⟩
  · exact .inl ⟨_, stopCamera_adopting h, rfl, rfl, .inl rfl, by simp [inWaitingSet, h]⟩
  · exact .inl ⟨_, stopCamera_waiting h, rfl, rfl, .inl rfl, by simp [stopWaits, inWaitingSet]⟩
  · exact .inl ⟨_, stopCamera_latches h, rfl, rfl, .inl rfl, by rcases h with h | h | h | h <;> simp [inWaitingSet, h]⟩
  · exact .inl ⟨_, stopCamera_rests h, rfl, rfl, .inr rfl, rfl⟩
  · exact .inr ⟨h, ha, stopCamera_abandons h ha⟩

theorem stopCamera_keeps (w : State) (c : Cam) : TurnKeeps w (stopCamera w c) := by
  obtain ⟨f, hf⟩ | ⟨-, -, hf⟩ := stopCamera_cases w c
  · exact hf.keeps
  · rw [hf]; exact (modCam_keeps c stopSlowed w rfl rfl id).trans (abandonMove_keeps ..)

theorem stopCamera_raises (w : State) (c : Cam) : Raises w (stopCamera w c) := by
  obtain ⟨f, hf⟩ | ⟨-, -, hf⟩ := stopCamera_cases w c
  · rw [hf.eq]; exact modCam_raises ..
  · rw [hf]; exact (modCam_raises ..).trans (abandonMove_raises ..)

theorem stopCamera_inside (w : State) (c : Cam) : Inside w (stopCamera w c) := by
  obtain ⟨f, hf⟩ | ⟨-, -, hf⟩ := stopCamera_cases w c
  · rw [hf.eq]; exact modCam_inside ..
  · rw [hf]; exact (modCam_inside ..).trans (abandonMove_inside ..)

theorem stopCamera_spares (w : State) (c : Cam) : Spares c w (stopCamera w c) := by
  obtain ⟨f, hf⟩ | ⟨-, -, hf⟩ := stopCamera_cases w c
  · rw [hf.eq]; exact (modCam_touches ..).spares
  · rw [hf]; exact (modCam_touches c stopSlowed w).spares.trans (abandonMove_spares c _)

end Sys2Proof.Machine

/-! The stop line's assertion as turns of the cameras, and its release (R60, R107, R110, R146, R147). -/

namespace Sys2Proof.Machine

variable {s t u v w : State} {c d x : Cam} {q : Cue} {k k' : Camera} {g h : Grid Cell} {rounds : List ExamRound}

/-! The turns (R60, R107) -/

/-- What the assertion makes of a camera that waited for floor at it, whether it still does or has been tried. -/
def StopOwn (k k' : Camera) : Prop := (inWaitingSet k = true → k' = stopWaits k) ∧ (AfterTry k → k' = stopTaken k)

/-- The parked rectangle of a camera where it stands (R102). -/
def parkedNow (s : State) (d : Cam) : Rect :=
  parkedRect s.floor (s.cam d).cfg.margin (s.cam d).setpoints[floorX] (s.cam d).setpoints[floorY]

theorem Examines.of_beside (hb : Beside c s v) (h : Examines v c g t) : Examines s c g t := by
  obtain ⟨w, hw, ht⟩ := h
  exact ⟨w, ⟨fun x hx => (hw.others x hx).trans (hb.others x hx), hw.out, hw.cells⟩, ht⟩

theorem stopWaits_out (k : Camera) : inWaitingSet (stopWaits k) = false := by simp [stopWaits, inWaitingSet]

theorem stopTaken_out (h : AfterTry k) : inWaitingSet (stopTaken k) = false := by
  unfold stopTaken
  split
  · rfl
  · exact h.out

/-- A camera that the assertion slows to the end of its move gives floor back when it is ROAMING. -/
theorem stopCamera_examines (h : StopEndsClaim (w.cam c)) (hg : GotoNext (w.cam c)) :
    Examines w c (cellsGivenBack w.floor c (parkedNow w c)) (stopCamera w c) ∧ inWaitingSet ((stopCamera w c).cam c) = false := by
  obtain ⟨hst, ha, hk⟩ := h
  have hcam := cam_modCam_self c stopSlowed w
  rw [stopCamera_abandons hst ha, abandonMove_eq]
  have hgive := moveOver_gives (s := w.modCam c stopSlowed) (c := c) (by rw [hcam]; exact hk) (by rw [hcam]; exact hg) .abandoned 0
    ((w.modCam c stopSlowed).cam c).setpoints[floorX] ((w.modCam c stopSlowed).cam c).setpoints[floorY]
  refine ⟨.of_beside (modCam_beside c stopSlowed w) ?_, hgive.2⟩
  have hex := hgive.1
  rwa [show parkedRect (w.modCam c stopSlowed).floor ((w.modCam c stopSlowed).cam c).cfg.margin _ _ = parkedNow w c from by rw [hcam]; rfl] at hex

/-- Every other camera leaves the floor at its turn. -/
theorem stopCamera_alone (h : ¬StopEndsClaim (w.cam c)) : Touches c w (stopCamera w c) ∧ Beside c w (stopCamera w c) ∧ inWaitingSet ((stopCamera w c).cam c) = false := by
  obtain ⟨f, hf⟩ | ⟨hst, ha, hf⟩ := stopCamera_cases w c
  · rw [hf.eq, cam_modCam_self]
    exact ⟨modCam_touches .., modCam_beside .., hf.out⟩
  · have hcam := cam_modCam_self c stopSlowed w
    have hk : ((w.modCam c stopSlowed).cam c).cfg.kind ≠ some .roaming := fun hk => h ⟨hst, ha, by rw [hcam] at hk; exact hk⟩
    have hnone := moveOver_noFloor hk .abandoned 0 ((w.modCam c stopSlowed).cam c).setpoints[floorX]
      ((w.modCam c stopSlowed).cam c).setpoints[floorY]
    have htouch : Touches c w (stopCamera w c) := by
      rw [hf, abandonMove_eq, moveOver_fixed hk]
      exact (modCam_touches c stopSlowed w).trans
        (((endActive_touches c _ _ _).trans (modCam_touches c unmarked _)).trans (takeHead_touches c _))
    rw [← abandonMove_eq, ← hf] at hnone
    exact ⟨htouch, .of_touches htouch hnone.floor, hnone.out⟩

theorem not_stopEndsClaim (h : (w.cam c).state ≠ .halting) : ¬StopEndsClaim (w.cam c) := fun ⟨hst, _⟩ => h hst

theorem inWaitingSet_state (h : inWaitingSet k = true) : k.state = .waiting := (inWaitingSet_iff.mp h).1

/-- A camera that has been tried takes its own turn. -/
theorem stopCamera_tried (h : AfterTry (w.cam c)) : (stopCamera w c).cam c = stopTaken (w.cam c) := by
  rcases h with h | h | h
  · rw [stopCamera_latches (.inl h), cam_modCam_self, stopTaken, if_neg (by rw [h]; nofun)]
  · rw [stopCamera_latches (.inr (.inl h)), cam_modCam_self, stopTaken, if_neg (by rw [h]; nofun)]
  · rw [stopCamera_rests (.inl h), cam_modCam_self, stopTaken, if_pos h]
    rfl

theorem stop_law (hg : ∀ d, StopEndsClaim (s.cam d) → GotoNext (s.cam d)) :
    TurnLaw s s.cam StopOwn (fun d => StopEndsClaim (s.cam d)) (fun _ => False) (parkedNow s) stopCamera where
  keeps := stopCamera_keeps
  fixed d hd := by rw [inWaitingSet, hd.1]; rfl
  examines w d hd hcam hmap := by
    have hex := stopCamera_examines (w := w) (c := d) (by rw [hcam]; exact hd) (by rw [hcam]; exact hg d hd)
    rwa [show parkedNow w d = parkedNow s d from by rw [parkedNow, parkedNow, hcam, hmap]; rfl] at hex
  alone w d hd hset hcam := (stopCamera_alone (by rw [hcam]; exact hd)).2
  waiting w d hset hor := by
    refine ⟨(stopCamera_alone (not_stopEndsClaim ?_)).2.1, fun hw => ?_, stopCamera_tried⟩
    · rcases hor with hcam | h | h | h
      · rw [hcam, inWaitingSet_state hset]; nofun
      all_goals rw [h]; nofun
    · rw [stopCamera_waiting (inWaitingSet_state hw), cam_modCam_self]
  out k k' hk hown := by rw [hown.2 hk]; exact stopTaken_out hk
  set x k hset hown := by rw [hown.1 hset, stopWaits_out]; exact ⟨nofun, nofun⟩
  late x k hset hown hk := by rw [hown.1 hset, stopWaits_out] at hk; cases hk

/-! The assertion -/

/-- The part as the cameras take the assertion: the level is recorded and the flag set. -/
def stopMarked (s : State) : State :=
  (({ s with pins := { s.pins with stopLow := true }, lines := { s.lines with stop := true } } : State).lineDue).flag flagStopOn

theorem stopChange_asserted (hrun : s.startup = .running) (hstop : s.lines.stop = false) :
    stopChange true s = allCams.foldl stopCamera (stopMarked s) := by
  unfold stopChange
  dsimp only
  rw [if_pos ⟨hrun, by rw [hstop]; nofun⟩]
  rfl

/-- The part with the stop line released. -/
def stopLifted (s : State) : State := { s with pins := { s.pins with stopLow := false }, lines := { s.lines with stop := false } }

theorem stopChange_released (hrun : s.startup = .running) (hstop : s.lines.stop = true) :
    stopChange false s = (stopLifted s).lineDue.flag flagStopOff := by
  unfold stopChange
  dsimp only
  rw [if_pos ⟨hrun, by rw [hstop]; nofun⟩]
  rfl

/-- A camera's turn, where the turns before it leave it. -/
theorem asserted_turn (hc : inWaitingSet (s.cam c) = false ∨ ∀ d, d < c → ¬StopEndsClaim (s.cam d)) :
    ∃ w, w.cam c = s.cam c ∧ TurnKeeps (stopMarked s) w ∧
      (inWaitingSet ((stopCamera w c).cam c) = false → (allCams.foldl stopCamera (stopMarked s)).cam c = (stopCamera w c).cam c) :=
  allCams_turn stopCamera_keeps (fun w e => stopCamera_spares w e) (stopMarked s)
    (hc.imp id fun h d hd w hw => (stopCamera_alone (by rw [hw]; exact h d hd)).1)

theorem asserted_alone (hc : inWaitingSet (s.cam c) = false ∨ ∀ d, d < c → ¬StopEndsClaim (s.cam d)) (hn : ¬StopEndsClaim (s.cam c)) :
    ∃ w, w.cam c = s.cam c ∧ (allCams.foldl stopCamera (stopMarked s)).cam c = (stopCamera w c).cam c := by
  obtain ⟨w, hcam, -, hturn⟩ := asserted_turn hc
  exact ⟨w, hcam, hturn (stopCamera_alone (by rw [hcam]; exact hn)).2.2⟩

/-- A HALTING camera with its abandon mark ends its cue. -/
theorem asserted_abandons (hst : (s.cam c).state = .halting) (ha : (s.cam c).abandon = true) (hq : (s.cam c).active = some q) (hg : GotoNext (s.cam c)) :
    (allCams.foldl stopCamera (stopMarked s)).cam c =
      moveEnded s.floor q .abandoned 0 (s.cam c).setpoints { s.cam c with stopLatch := true, rate := 0, rt := 0 } := by
  obtain ⟨w, hcam, hkeep, hturn⟩ := asserted_turn (s := s) (c := c) (.inl (by rw [inWaitingSet, hst]; rfl))
  have hslow := cam_modCam_self c stopSlowed w
  have hend : (stopCamera w c).cam c =
      moveEnded s.floor q .abandoned 0 (s.cam c).setpoints { s.cam c with stopLatch := true, rate := 0, rt := 0 } := by
    rw [stopCamera_abandons (by rw [hcam]; exact hst) (by rw [hcam]; exact ha), abandonMove_eq,
      moveOver_headTaken (q := q) (by rw [hslow, hcam]; exact hq) (by rw [hslow, hcam]; exact hg), hslow, hcam]
    have hmap : (w.modCam c stopSlowed).floor = { s.floor with cells := w.floor.cells } := hkeep.map
    rw [hmap]
    rfl
  rw [hturn ?_, hend]
  rw [hend]
  exact headTaken_out rfl

/-- The rounds of the statement are those of the turns. -/
theorem stop_rounds (hc : ∀ d, StopEndsClaim (s.cam d) ↔ ∃ r ∈ rounds, r.cam = d) (ho : rounds.Pairwise (·.cam < ·.cam)) (ht : TriesOf s rounds)
    (hr : RoundsGive s.floor (parkedNow s) (fun d x => inWaitingSet (s.cam x) = true ∧ d < x) [] s.floor.cells rounds h) :
    RoundsOf s s.cam (fun d => StopEndsClaim (s.cam d)) (fun _ => False) (parkedNow s) (fun d x => inWaitingSet (s.cam x) = true ∧ d < x) allCams []
      rounds s.floor.cells h where
  cams d _ := hc d
  among r _ := List.mem_finRange r.cam
  ordered := ho
  sets _ _ _ := ⟨fun ⟨hw, hlt⟩ => ⟨hw, ne_of_gt hlt, .inl hlt⟩, fun ⟨hw, _, hlt⟩ => ⟨hw, hlt.resolve_right nofun⟩⟩
  cues := ht
  give := hr

/-- The examinations of the assertion. -/
theorem asserted_rounds (hg : ∀ d, StopEndsClaim (s.cam d) → GotoNext (s.cam d)) (hc : ∀ d, StopEndsClaim (s.cam d) ↔ ∃ r ∈ rounds, r.cam = d)
    (ho : rounds.Pairwise (·.cam < ·.cam)) (ht : TriesOf s rounds)
    (hr : RoundsGive s.floor (parkedNow s) (fun d x => inWaitingSet (s.cam x) = true ∧ d < x) [] s.floor.cells rounds h) :
    Turning s.cam StopOwn [] rounds (allCams.foldl stopCamera (stopMarked s)) ∧ (allCams.foldl stopCamera (stopMarked s)).floor.cells = h :=
  allTurns_leave (stop_law hg) (fun _ => rfl) rfl (stop_rounds hc ho ht hr)

/-- Where a camera of the set stands after the examinations of the assertion and its own turn. -/
theorem asserted_tried (hturn : Turning s.cam StopOwn [] rounds v) :
    (∀ r ∈ rounds, ∀ e ∈ r.tries, e.outcome ≠ .denied → v.cam e.cam = stopTaken (cameraTried e.cue e.claim (s.cam e.cam) e.outcome)) ∧
      ∀ x : Cam, inWaitingSet (s.cam x) = true → DeniedIn rounds x → v.cam x = { s.cam x with stopLatch := true, waitStop := true } := by
  refine ⟨fun r hr e he ho => ?_, fun x hx hd => ?_⟩
  · obtain ⟨k, hleft, -, hown⟩ := hturn.past e.cam List.not_mem_nil (hturn.tried r hr e he)
    have hk := hleft.tried r hr e he rfl ho
    rw [hown (by rw [hk]; exact cameraTried_afterTry ho), hk]
  · obtain ⟨k, hleft, hown, -⟩ := hturn.past x List.not_mem_nil hx
    rw [hown (by rw [hleft.denied hd]; exact hx), hleft.denied hd]
    rfl

/-- The assertion reaches each camera by its state (R60). -/
theorem asserted_reaches (s : State) (c : Cam) :
    let v := allCams.foldl stopCamera (stopMarked s)
    ((s.cam c).state = .offline → v.cam c = s.cam c) ∧
      (∀ ad : Adoption, (s.cam c).state = .adopting → (s.cam c).adoption = some ad →
        v.cam c = { s.cam c with adoption := some { ad with stopSeen := true } }) ∧
      ((s.cam c).state = .idle ∨ (s.cam c).state = .fetching ∨ (s.cam c).state = .halted ∨ (s.cam c).state = .direct →
        v.cam c = { s.cam c with stopLatch := true }) ∧
      ((s.cam c).state = .waiting → inWaitingSet (s.cam c) = false ∨ (∀ d : Cam, d < c → ¬StopEndsClaim (s.cam d)) →
        v.cam c = { s.cam c with stopLatch := true, waitStop := true }) ∧
      ((s.cam c).state = .moving ∨ (s.cam c).state = .halting ∧ (s.cam c).abandon = false →
        v.cam c = { s.cam c with stopLatch := true, halt := true, rate := 0, rt := 0, state := .halted }) := by
  have hout : (s.cam c).state ≠ .waiting → inWaitingSet (s.cam c) = false := inWaitingSet_of_state
  refine ⟨fun h => ?_, fun ad h had => ?_, fun h => ?_, fun h hor => ?_, fun h => ?_⟩
  · obtain ⟨w, hcam, hturn⟩ := asserted_alone (.inl (hout (by rw [h]; nofun))) (not_stopEndsClaim (by rw [h]; nofun))
    rw [hturn, stopCamera_offline (by rw [hcam]; exact h), hcam]
  · obtain ⟨w, hcam, hturn⟩ := asserted_alone (.inl (hout (by rw [h]; nofun))) (not_stopEndsClaim (by rw [h]; nofun))
    rw [hturn, stopCamera_adopting (by rw [hcam]; exact h), cam_modCam_self, hcam, had]
    rfl
  · have hne : (s.cam c).state ≠ .waiting ∧ (s.cam c).state ≠ .halting := by
      rcases h with h | h | h | h <;> rw [h] <;> exact ⟨nofun, nofun⟩
    obtain ⟨w, hcam, hturn⟩ := asserted_alone (.inl (hout hne.1)) (not_stopEndsClaim hne.2)
    rw [hturn, stopCamera_latches (by rw [hcam]; exact h), cam_modCam_self, hcam]
  · obtain ⟨w, hcam, hturn⟩ := asserted_alone hor (not_stopEndsClaim (by rw [h]; nofun))
    rw [hturn, stopCamera_waiting (by rw [hcam]; exact h), cam_modCam_self, hcam]
    rfl
  · have hn : ¬StopEndsClaim (s.cam c) := fun ⟨hst, ha, _⟩ => by
      rcases h with h | ⟨-, h⟩
      · rw [h] at hst; cases hst
      · rw [h] at ha; cases ha
    obtain ⟨w, hcam, hturn⟩ := asserted_alone (.inl (hout (by rcases h with h | ⟨h, -⟩ <;> rw [h] <;> nofun))) hn
    rw [hturn, stopCamera_rests (by rw [hcam]; exact h), cam_modCam_self, hcam]
    rfl

/-- One camera gives floor back while none waits for it. -/
theorem asserted_cells (he : StopEndsClaim (s.cam c)) (hg : GotoNext (s.cam c))
    (ho : ∀ d : Cam, d ≠ c → ¬StopEndsClaim (s.cam d) ∧ inWaitingSet (s.cam d) = false) :
    (allCams.foldl stopCamera (stopMarked s)).floor.cells = cellsGivenBack s.floor c (parkedNow s c) := by
  have hall : ∀ x, inWaitingSet (s.cam x) = false := fun x => by
    by_cases hx : x = c
    · rw [hx, inWaitingSet, he.1]; rfl
    · exact (ho x hx).2
  have honly : ∀ d, StopEndsClaim (s.cam d) → d = c := fun d hd => by
    by_contra hne
    exact (ho d hne).1 hd
  refine (asserted_rounds (rounds := [⟨c, []⟩]) (fun d hd => honly d hd ▸ hg) (fun d => ⟨fun hd => ⟨_, List.mem_cons_self, (honly d hd).symm⟩, ?_⟩)
    (List.pairwise_singleton _ _) ?_ ?_).2
  · rintro ⟨r, hr, rfl⟩
    rw [List.mem_singleton.mp hr]
    exact he
  · intro r hr e hmem
    rw [List.mem_singleton.mp hr] at hmem
    cases hmem
  · refine ⟨fun x => ⟨fun ⟨⟨hw, _⟩, _⟩ => ?_, nofun⟩, .nil, _, rfl, rfl⟩
    rw [hall x] at hw
    cases hw

theorem Settled.lineDue (h : Settled u v) : Settled u v.lineDue := { h with }

/-- Settles O48: the cameras take the assertion in ascending number, each to its end, and the release changes none. -/
theorem stopLineReachesEveryCamera : Obligations.StopLineReachesEveryCamera := by
  refine ⟨fun s hrun hw hpin hstop => ?_, fun s hrun hw hpin hstop => ?_⟩
  · have heq := stopChange_asserted hrun hstop
    have hin := foldl_inside stopCamera_inside allCams (stopMarked s)
    have hkeep := foldl_keeps stopCamera_keeps allCams (stopMarked s)
    have hraise := foldl_raises stopCamera_raises allCams (stopMarked s)
    have hreach := asserted_reaches s
    have hturns := @asserted_rounds s
    have habandon := @asserted_abandons s
    have hback := @asserted_cells s
    rw [← heq] at hin hkeep hraise
    simp only [← heq] at hreach hturns habandon hback
    have hwaits : HostWaits (stopChange true s) := hin.waits hw
    have hset := settle_settled hwaits (.refl _) s
    have hlines : (stopChange true s).lines = { s.lines with stop := true } := hin.lines
    refine ⟨_, if_neg (by rw [hpin]; nofun), settle_same hwaits hin.mem s, ?_, hset.lines.trans hlines, ?_, fun hheld => ?_,
      fun rounds h hc ho hg ht hr => ?_, fun c => ?_⟩
    · rw [hset.pins, hin.pins]; rfl
    · rw [hset.flags]
      refine hraise.flagged flagStopOn fun i hi => ?_
      rw [show (stopMarked s).stat.flags = s.stat.flags ||| flagStopOn from rfl, BitVec.getLsbD_or, hi, Bool.or_true]
    · have hchanged : ReportChanged s (stopChange true s) .lineState := .inr (by rw [hlines, hstop]; nofun)
      exact settle_held_due (i := .lineState) hwaits (by rw [hkeep.port]; exact hheld)
        ((stopChange_course (s0 := s) (P := ∅) true).orderly.marked .lineState nofun hchanged) s
    · obtain ⟨hturn, hcells⟩ := hturns hg hc ho ht hr
      simp only [hset.cam, hset.floor]
      exact ⟨hcells, asserted_tried hturn⟩
    · simp only [hset.cam, hset.floor]
      obtain ⟨h1, h2, h3, h4, h5⟩ := hreach c
      refine ⟨h1, h2, h3, h4, h5, fun q hst ha hq hg => ⟨habandon hst ha hq hg, fun hk ho => hback ⟨hst, ha, hk⟩ hg ho⟩⟩
  · have heq := stopChange_released hrun hstop
    have hwaits : HostWaits (stopChange false s) := by rw [heq]; exact hw
    have hmem : (stopChange false s).mem = s.mem := by rw [heq]; rfl
    refine ⟨_, if_pos hpin, settle_same hwaits hmem s, settle_settled hwaits ?_ s⟩
    rw [heq]
    exact (Settled.lineDue (.refl (stopLifted s))).flag flagStopOff

end Sys2Proof.Machine

/-! A camera's step at a serviced tick (R33 to R35, R56, R57, R59, R109, R141). -/

namespace Sys2Proof.Machine

variable {s t u v w : State} {c d x : Cam} {q : Cue} {k k' : Camera} {g h : Grid Cell}

/-! The motion -/

theorem movedAtTick_stays (h : ¬(k.state = .moving ∨ k.state = .halting)) (hd : k.state ≠ .direct) : movedAtTick k = k := by
  rw [movedAtTick, if_neg h, if_neg hd]

theorem countWait_out (h : inWaitingSet k = false) : countWait k = k := if_neg (by rw [h]; nofun)

theorem countWait_set (h : inWaitingSet k = true) : countWait k = waitCounted k := if_pos h

/-- A camera at the turns of a serviced tick: its wait counted, its motion serviced. -/
def servedCamera (k : Camera) : Camera := serviceCamera (countWait k)

theorem servedCamera_out (h : inWaitingSet k = false) : servedCamera k = movedAtTick k := by
  rw [servedCamera, countWait_out h, serviceCamera_eq]

theorem servedCamera_set (h : inWaitingSet k = true) : servedCamera k = waitCounted k := by
  have hst : (waitCounted k).state = .waiting := inWaitingSet_state h
  rw [servedCamera, countWait_set h, serviceCamera_eq, movedAtTick_stays (by rw [hst]; nofun) (by rw [hst]; nofun)]

theorem movedAtTick_fields (k : Camera) : ∃ rate p q sp, movedAtTick k = { k with rate := rate, p := p, q := q, setpoints := sp } := by
  rw [← serviceCamera_eq]
  exact serviceCamera_fields k

theorem inWaitingSet_servedCamera (k : Camera) : inWaitingSet (servedCamera k) = inWaitingSet k := by
  obtain ⟨rate, p, q, sp, n, h⟩ := serviceCamera_countWait k
  rw [servedCamera, h]
  rfl

theorem waitExpired_counted (h : inWaitingSet k = true) : waitExpired (waitCounted k) = true ↔ WaitEnds k := by
  have hset : inWaitingSet (waitCounted k) = true := h
  rw [waitExpired, hset, WaitEnds, h]
  simp only [Bool.true_and, Bool.and_eq_true, bne_iff_ne, ne_eq, decide_eq_true_eq, true_and]
  exact Iff.rfl

/-! The turn (R33 steps 4 and 5, R109) -/

/-- Cameras that end a move or come to rest, with what the motion has made of them. -/
theorem tickStep_completes (h : CompletesAtTick (s.cam c)) (hw : w.cam c = movedAtTick (s.cam c)) : tickStep s w c = completeMove c w := by
  obtain ⟨hst, hp⟩ := h
  obtain ⟨rate, p, q, sp, hm⟩ := movedAtTick_fields (s.cam c)
  have hend : (w.cam c).p = (w.cam c).plan.n' := by rw [hw, hp, hm]
  rcases hst with hst | hst <;> simp only [tickStep, hst, hend, if_true]

theorem tickStep_rests (h : RestsAtTick (s.cam c)) (hw : w.cam c = movedAtTick (s.cam c)) : tickStep s w c = restMove c w := by
  obtain ⟨hst, hp, hr⟩ := h
  obtain ⟨rate, p, q, sp, hm⟩ := movedAtTick_fields (s.cam c)
  have hend : ¬(w.cam c).p = (w.cam c).plan.n' := by rw [hw, hm]; rw [hm] at hp; exact hp
  have hrate : (w.cam c).rate = 0 := by rw [hw, hr]
  simp only [tickStep, hst, hend, hrate, if_true, if_false]

theorem tickStep_goes (hset : inWaitingSet (s.cam c) = false) (hc : ¬CompletesAtTick (s.cam c)) (hr : ¬RestsAtTick (s.cam c))
    (hw : w.cam c = movedAtTick (s.cam c)) : tickStep s w c = w := by
  obtain ⟨rate, p, q, sp, hm⟩ := movedAtTick_fields (s.cam c)
  have hp : (movedAtTick (s.cam c)).plan = (s.cam c).plan := by rw [hm]
  have hgo : (s.cam c).state = .moving ∨ (s.cam c).state = .halting → ¬(w.cam c).p = (w.cam c).plan.n' := fun hst hend => by
    rw [hw, hp] at hend
    exact hc ⟨hst, hend⟩
  cases hst : (s.cam c).state with
  | moving => simp only [tickStep, hst, hgo (.inl hst), if_false]
  | halting =>
    have hend := hgo (.inr hst)
    have hrate : ¬(w.cam c).rate = 0 := fun h => by
      rw [hw, hp] at hend
      rw [hw] at h
      exact hr ⟨hst, hend, h⟩
    simp only [tickStep, hst, hend, hrate, if_false]
  | waiting => simp only [tickStep, hst, hset, Bool.false_eq_true, if_false]
  | _ => simp only [tickStep, hst]

theorem tickStep_waits (hset : inWaitingSet (s.cam c) = true) : tickStep s w c = expireWait c w := by
  simp only [tickStep, inWaitingSet_state hset, hset, if_true]

theorem restMove_halts (h : (w.cam c).abandon = false) : restMove c w = w.modCam c fun k => { k with state := .halted } :=
  if_neg (by rw [h]; nofun)

theorem restMove_abandons (h : (w.cam c).abandon = true) : restMove c w = abandonMove c w := if_pos h

theorem expireWait_keeps (c : Cam) (w : State) : TurnKeeps w (expireWait c w) := by
  unfold expireWait
  split
  · exact (endActive_keeps ..).trans (takeHead_keeps ..)
  · exact .refl w

theorem restMove_keeps (c : Cam) (w : State) : TurnKeeps w (restMove c w) := by
  unfold restMove
  split
  · exact abandonMove_keeps c w
  · exact modCam_keeps c _ w rfl rfl fun _ => rfl

theorem tickStep_cases (s w : State) (c : Cam) :
    tickStep s w c = w ∨ tickStep s w c = completeMove c w ∨ tickStep s w c = restMove c w ∨ tickStep s w c = expireWait c w := by
  unfold tickStep
  split
  · split
    · exact .inr (.inl rfl)
    · exact .inl rfl
  · split
    · exact .inr (.inl rfl)
    · split
      · exact .inr (.inr (.inl rfl))
      · exact .inl rfl
  · split
    · exact .inr (.inr (.inr rfl))
    · exact .inl rfl
  · exact .inl rfl

theorem tickStep_keeps (s w : State) (c : Cam) : TurnKeeps w (tickStep s w c) := by
  rcases tickStep_cases s w c with h | h | h | h <;> rw [h]
  · exact .refl w
  · exact completeMove_keeps c w
  · exact restMove_keeps c w
  · exact expireWait_keeps c w

theorem expireWait_raises (c : Cam) (w : State) : Raises w (expireWait c w) :=
  raises_ite ((endActive_raises ..).trans (takeHead_raises ..)) (.refl w)

theorem tickStep_raises (s w : State) (c : Cam) : Raises w (tickStep s w c) := by
  rcases tickStep_cases s w c with h | h | h | h <;> rw [h]
  · exact .refl w
  · exact completeMove_raises c w
  · exact raises_ite (abandonMove_raises c w) (modCam_raises ..)
  · exact expireWait_raises c w

theorem tickStep_inside (s w : State) (c : Cam) : Inside w (tickStep s w c) := by
  rcases tickStep_cases s w c with h | h | h | h <;> rw [h]
  · exact .refl w
  · exact completeMove_inside c w
  · exact inside_ite (abandonMove_inside c w) (modCam_inside ..)
  · exact expireWait_inside c w

/-- A wait that ends at its limit: its camera takes its next head, here a GOTO (R109, R52). -/
theorem expireWait_expired (he : waitExpired (w.cam c) = true) (hg : GotoNext (w.cam c)) :
    Beside c w (expireWait c w) ∧ inWaitingSet ((expireWait c w).cam c) = false ∧
      ∀ q, (w.cam c).active = some q → (expireWait c w).cam c = headTaken (cueEnded q .floorTimeout 0 (w.cam c)) := by
  have hend := endActive_beside c .floorTimeout 0 w
  have hidle := endActive_state c .floorTimeout 0 w
  have hnext : GotoNext ((endActive c .floorTimeout 0 w).cam c) := by rw [GotoNext, endActive_queue]; exact hg
  rw [expireWait_ends he, takeHead_cam hidle hnext]
  refine ⟨hend.trans ⟨(takeHead_touches c _).others, takeHead_floor hidle hnext⟩, headTaken_out hidle, fun q hq => ?_⟩
  rw [endActive_cam hq]

theorem expireWait_stays (he : waitExpired (w.cam c) = false) : expireWait c w = w := if_neg (by rw [he]; nofun)

end Sys2Proof.Machine

/-! The turns of a serviced tick (R33 to R35, R107, R109, R110, R128). -/

namespace Sys2Proof.Machine

variable {s t u v w : State} {c d x : Cam} {q : Cue} {k k' : Camera} {g h : Grid Cell} {rounds : List ExamRound}

/-! Turns that end a move -/

/-- A ROAMING camera whose move ends at the tick gives back floor (R107, R110). -/
theorem tickStep_examines (he : EndsAtTick (s.cam c)) (hg : GotoNext (s.cam c)) (hw : w.cam c = movedAtTick (s.cam c))
    (hmap : w.floor = { s.floor with cells := w.floor.cells }) :
    Examines w c (cellsGivenBack w.floor c (parkedAtTick s.floor (s.cam c))) (tickStep s w c) ∧ inWaitingSet ((tickStep s w c).cam c) = false := by
  obtain ⟨hk, hend⟩ := he
  obtain ⟨rate, p, q, sp, hm⟩ := movedAtTick_fields (s.cam c)
  have hkw : (w.cam c).cfg.kind = some .roaming := by rw [hw, hm]; exact hk
  have hgw : GotoNext (w.cam c) := by rw [hw, hm]; exact hg
  have hpark : ∀ x y, parkedRect w.floor (w.cam c).cfg.margin x y = parkedRect s.floor (s.cam c).cfg.margin x y := fun x y => by
    rw [hmap, hw, hm]
    rfl
  rcases hend with hend | ⟨hrest, ha⟩
  · have hplan : (w.cam c).plan = (s.cam c).plan := by rw [hw, hm]
    have hgive := moveOver_gives hkw hgw (completionCode (w.cam c).plan.detail) ((w.cam c).plan.detail.setWidth 16)
      (w.cam c).plan.target[floorX] (w.cam c).plan.target[floorY]
    rw [tickStep_completes hend hw, completeMove_eq]
    rw [hpark] at hgive
    rw [parkedAtTick, if_pos hend.2, ← hplan]
    exact hgive
  · have hgive := moveOver_gives hkw hgw .abandoned 0 (w.cam c).setpoints[floorX] (w.cam c).setpoints[floorY]
    rw [tickStep_rests hrest hw, restMove_abandons (by rw [hw, hm]; exact ha), abandonMove_eq]
    rw [hpark] at hgive
    rw [parkedAtTick, if_neg hrest.2.1, ← hw]
    exact hgive

/-- A move that is over and gives back no floor. -/
theorem moveOver_alone (hk : (w.cam c).cfg.kind ≠ some .roaming) (code : Code) (detail : BitVec 16) (x y : Int) :
    Touches c w (takeHead c (moveOver c code detail x y w)) ∧ Beside c w (takeHead c (moveOver c code detail x y w)) ∧
      inWaitingSet ((takeHead c (moveOver c code detail x y w)).cam c) = false := by
  have hnone := moveOver_noFloor hk code detail x y
  have htouch : Touches c w (takeHead c (moveOver c code detail x y w)) := by
    rw [moveOver_fixed hk]
    exact ((endActive_touches c _ _ _).trans (modCam_touches c unmarked _)).trans (takeHead_touches c _)
  exact ⟨htouch, .of_touches htouch hnone.floor, hnone.out⟩

/-- Every other camera outside the set of waiting cameras leaves the floor at its turn. -/
theorem tickStep_alone (he : ¬EndsAtTick (s.cam c)) (hset : inWaitingSet (s.cam c) = false) (hw : w.cam c = movedAtTick (s.cam c)) :
    Touches c w (tickStep s w c) ∧ Beside c w (tickStep s w c) ∧ inWaitingSet ((tickStep s w c).cam c) = false := by
  obtain ⟨rate, p, q, sp, hm⟩ := movedAtTick_fields (s.cam c)
  have hkind : ∀ hend : CompletesAtTick (s.cam c) ∨ RestsAtTick (s.cam c) ∧ (s.cam c).abandon = true, (w.cam c).cfg.kind ≠ some .roaming :=
    fun hend hk => by
      rw [hw, hm] at hk
      exact he ⟨hk, hend⟩
  by_cases hend : CompletesAtTick (s.cam c)
  · rw [tickStep_completes hend hw, completeMove_eq]
    exact moveOver_alone (hkind (.inl hend)) ..
  · by_cases hrest : RestsAtTick (s.cam c)
    · rw [tickStep_rests hrest hw]
      cases ha : (s.cam c).abandon with
      | true =>
        rw [restMove_abandons (by rw [hw, hm]; exact ha), abandonMove_eq]
        exact moveOver_alone (hkind (.inr ⟨hrest, ha⟩)) ..
      | false =>
        rw [restMove_halts (by rw [hw, hm]; exact ha), cam_modCam_self]
        exact ⟨modCam_touches .., modCam_beside .., rfl⟩
    · rw [tickStep_goes hset hend hrest hw]
      refine ⟨.refl c w, .refl c w, ?_⟩
      rw [hw, hm]
      exact hset

/-! The rules of the turns -/

/-- What the tick makes of a camera that waited for floor at it: its wait ends at the limit (R109). -/
def TickOwn (k k' : Camera) : Prop :=
  (waitExpired k = false → k' = k) ∧
    (waitExpired k = true → inWaitingSet k' = false ∧ ∀ q, k.active = some q → k' = headTaken (cueEnded q .floorTimeout 0 k))

theorem AfterTry.unexpired (h : AfterTry k) : waitExpired k = false := by
  rw [waitExpired, h.out]
  rfl

theorem tick_law (hg : ∀ d, EndsAtTick (s.cam d) ∨ WaitEnds (s.cam d) → GotoNext (s.cam d)) :
    TurnLaw s (fun x => servedCamera (s.cam x)) TickOwn (fun d => EndsAtTick (s.cam d)) (fun x => ¬WaitEnds (s.cam x))
      (fun d => parkedAtTick s.floor (s.cam d)) (tickStep s) where
  keeps := tickStep_keeps s
  fixed d hd := by
    rw [inWaitingSet_servedCamera]
    refine inWaitingSet_of_moving ?_
    rcases hd.2 with ⟨h | h, -⟩ | ⟨⟨h, -⟩, -⟩ <;> rw [h] <;> rfl
  examines w d hd hcam hmap := by
    have hset : inWaitingSet (s.cam d) = false := by
      refine inWaitingSet_of_moving ?_
      rcases hd.2 with ⟨h | h, -⟩ | ⟨⟨h, -⟩, -⟩ <;> rw [h] <;> rfl
    exact tickStep_examines hd (hg d (.inl hd)) (by rw [hcam, servedCamera_out hset]) hmap
  alone w d hd hset hcam := by
    rw [inWaitingSet_servedCamera] at hset
    exact (tickStep_alone hd hset (by rw [hcam, servedCamera_out hset])).2
  waiting w d hset hor := by
    rw [inWaitingSet_servedCamera] at hset
    rw [tickStep_waits hset]
    cases hexp : waitExpired (w.cam d) with
    | false =>
      rw [expireWait_stays hexp]
      exact ⟨.refl d w, fun _ => rfl, fun h => by rw [hexp] at h; cases h⟩
    | true =>
      have hcam : w.cam d = waitCounted (s.cam d) := by
        rcases hor with h | h
        · rw [h, servedCamera_set hset]
        · rw [h.unexpired] at hexp
          cases hexp
      have hends : WaitEnds (s.cam d) := (waitExpired_counted hset).mp (by rw [← hcam]; exact hexp)
      obtain ⟨hbeside, hout, htaken⟩ := expireWait_expired hexp (by rw [hcam]; exact hg d (.inr hends))
      exact ⟨hbeside, fun h => by (rw [hexp] at h; cases h), fun _ => ⟨hout, htaken⟩⟩
  out k k' hk hown := by rw [hown.1 hk.unexpired]; exact hk.out
  set x k hset hown := by
    have hbase := hset
    rw [inWaitingSet_servedCamera] at hset
    rw [← waitExpired_counted hset, ← servedCamera_set hset]
    cases hexp : waitExpired (servedCamera (s.cam x)) with
    | false => rw [hown.1 hexp, hbase]; simp
    | true => rw [(hown.2 hexp).1]; simp
  late x k hset hown hk := by
    cases hexp : waitExpired (servedCamera (s.cam x)) with
    | false => exact ⟨hown.1 hexp, fun k' hk' => ⟨fun _ => rfl, fun h => by rw [hk'.unexpired] at h; cases h⟩⟩
    | true => rw [(hown.2 hexp).1] at hk; cases hk

/-! The serviced tick -/

/-- The part as the cameras take their turns at a serviced tick: waits counted, motions serviced. -/
def tickMoved (s : State) : State := { s with cams := Vector.ofFn fun c => servedCamera (s.cam c) }

/-- The part after the turns of a serviced tick. -/
def tickTurned (s : State) : State := allCams.foldl (tickStep s) (tickMoved s)

theorem servicedTick_eq (s : State) : servicedTick s = countInterval (formWriteOuts (tickTurned s)) := rfl

theorem tickMoved_cam (c : Cam) : (tickMoved s).cam c = servedCamera (s.cam c) := cam_ofFn _ s c

/-- The turn of a camera outside the set of waiting cameras. -/
theorem tick_turn (hset : inWaitingSet (s.cam c) = false) :
    ∃ w, w.cam c = movedAtTick (s.cam c) ∧ w.floor = { s.floor with cells := w.floor.cells } ∧
      (inWaitingSet ((tickStep s w c).cam c) = false → (tickTurned s).cam c = (tickStep s w c).cam c) := by
  obtain ⟨w, hcam, hkeep, hturn⟩ := allCams_turn (c := c) (tickStep_keeps s) (fun w e => tickStep_spares s e w) (tickMoved s)
    (.inl (by rw [tickMoved_cam, inWaitingSet_servedCamera]; exact hset))
  exact ⟨w, by rw [hcam, tickMoved_cam, servedCamera_out hset], hkeep.map, hturn⟩

theorem tick_served (hset : inWaitingSet (s.cam c) = false) : ServedAtTick s (tickTurned s) c := by
  obtain ⟨w, hcam, hmap, hturn⟩ := tick_turn hset
  obtain ⟨rate, p, q, sp, hm⟩ := movedAtTick_fields (s.cam c)
  have hplan : (w.cam c).plan = (s.cam c).plan := by rw [hcam, hm]
  have hpark : ∀ code detail q p k, moveEnded w.floor q code detail p k = moveEnded s.floor q code detail p k := fun _ _ _ _ _ => by
    rw [hmap]
    rfl
  refine ⟨fun hc hr => ?_, fun q hc hq hg => ?_, fun hr ha => ?_, fun q hr ha hq hg => ?_⟩
  · rw [hturn, tickStep_goes hset hc hr hcam, hcam]
    rw [tickStep_goes hset hc hr hcam, hcam, hm]
    exact hset
  · have hend : (tickStep s w c).cam c =
        moveEnded s.floor q (if (s.cam c).plan.detail = 0 then .done else .doneClamped) ((s.cam c).plan.detail.setWidth 16)
          (s.cam c).plan.target (movedAtTick (s.cam c)) := by
      rw [tickStep_completes hc hcam, completeMove_eq, moveOver_headTaken (q := q) (by rw [hcam, hm]; exact hq) (by rw [hcam, hm]; exact hg),
        hpark, hplan, hcam]
      rfl
    rw [hturn, hend]
    rw [hend]
    exact headTaken_out rfl
  · have hend : (tickStep s w c).cam c = { movedAtTick (s.cam c) with state := .halted } := by
      rw [tickStep_rests hr hcam, restMove_halts (by rw [hcam, hm]; exact ha), cam_modCam_self, hcam]
    rw [hturn, hend]
    rw [hend]
    rfl
  · have hend : (tickStep s w c).cam c = moveEnded s.floor q .abandoned 0 (movedAtTick (s.cam c)).setpoints (movedAtTick (s.cam c)) := by
      rw [tickStep_rests hr hcam, restMove_abandons (by rw [hcam, hm]; exact ha), abandonMove_eq,
        moveOver_headTaken (q := q) (by rw [hcam, hm]; exact hq) (by rw [hcam, hm]; exact hg), hpark, hcam]
    rw [hturn, hend]
    rw [hend]
    exact headTaken_out rfl

end Sys2Proof.Machine

/-! Ticks, serviced and missed (R107, R109, R127 to R129, R133). -/

namespace Sys2Proof.Machine

variable {s t u v w : State} {c d x : Cam} {q : Cue} {k k' : Camera} {g h : Grid Cell} {rounds : List ExamRound} {n : Nat}

/-! Waits counted (R109) -/

/-- What a tick makes of a waiting camera whose wait has been counted. -/
structure WaitTaken (k k' : Camera) : Prop where
  counts : k.cfg.floorLimit = 0 ∨ Nat.min 65535 (k.waitCount + 1) < k.cfg.floorLimit → k' = waitCounted k
  expires : ∀ q : Cue, k.cfg.floorLimit ≠ 0 → k.cfg.floorLimit ≤ Nat.min 65535 (k.waitCount + 1) → k.active = some q → GotoNext k →
    k' = headTaken (cueEnded q .floorTimeout 0 k)

theorem expireWait_taken (hset : inWaitingSet k = true) (hw : w.cam c = waitCounted k) : WaitTaken k ((expireWait c w).cam c) := by
  refine ⟨fun hlimit => ?_, fun q hz hle hq hg => ?_⟩
  · rw [expireWait_stays, hw]
    rw [hw, Bool.eq_false_iff, ne_eq, waitExpired_counted hset]
    rintro ⟨-, hz, hle⟩
    rcases hlimit with hl | hl
    · exact hz hl
    · exact absurd hle (not_le.mpr hl)
  · have hexp : waitExpired (w.cam c) = true := by rw [hw, waitExpired_counted hset]; exact ⟨hset, hz, hle⟩
    rw [(expireWait_expired hexp (by rw [hw]; exact hg)).2.2 q (by rw [hw]; exact hq), hw]
    rfl

theorem WaitTaken.counted (h : WaitTaken (s.cam c) (t.cam c)) : CountedAtTick s t c := ⟨h.counts, h.expires⟩

/-- The turn of a camera where each camera takes its turn alone. -/
theorem allCams_alone {f : State → Cam → State} (s : State) (c : Cam) (hf : ∀ e, ∀ w, w.cam e = s.cam e → Touches e w (f w e)) :
    ∃ w, w.cam c = s.cam c ∧ (allCams.foldl f s).cam c = (f w c).cam c := by
  obtain ⟨l1, l2, hl⟩ := List.append_of_mem (List.mem_finRange c)
  have hnodup : (l1 ++ c :: l2).Nodup := hl ▸ allCams_nodup
  obtain ⟨hl1, hl2, hdis⟩ := List.nodup_append.mp hnodup
  obtain ⟨hc2, hl2'⟩ := List.nodup_cons.mp hl2
  have hbefore : ∀ e, e ∉ l1 → (l1.foldl f s).cam e = s.cam e := fun e he => foldl_alone l1 s hl1 (fun e' _ => hf e') he
  have hc1 : c ∉ l1 := fun h => hdis c h c List.mem_cons_self rfl
  have hstep := hf c (l1.foldl f s) (hbefore c hc1)
  refine ⟨l1.foldl f s, hbefore c hc1, ?_⟩
  rw [show allCams = l1 ++ c :: l2 from hl, List.foldl_append, List.foldl_cons]
  refine foldl_alone l2 _ hl2' (fun e he w hw => hf e w ?_) hc2
  rw [hw, hstep.others e fun h => hc2 (h ▸ he), hbefore e fun h => hdis e h e (List.mem_cons_of_mem c he) rfl]

theorem tick_waits (hn : ∀ d, ¬EndsAtTick (s.cam d)) (hset : inWaitingSet (s.cam c) = true) : CountedAtTick s (tickTurned s) c := by
  obtain ⟨w, hcam, hturn⟩ := allCams_alone (f := tickStep s) (tickMoved s) c fun e w hw => by
    rw [tickMoved_cam] at hw
    cases he : inWaitingSet (s.cam e) with
    | true => rw [tickStep_waits he]; exact expireWait_touches e w
    | false => exact (tickStep_alone (hn e) he (by rw [hw, servedCamera_out he])).1
  rw [tickMoved_cam, servedCamera_set hset] at hcam
  refine WaitTaken.counted (t := tickTurned s) ?_
  rw [tickTurned, hturn, tickStep_waits hset]
  exact expireWait_taken hset hcam

/-! The examinations (R107) -/

theorem tick_rounds (hc : ∀ d, EndsAtTick (s.cam d) ↔ ∃ r ∈ rounds, r.cam = d) (ho : rounds.Pairwise (·.cam < ·.cam)) (ht : TriesOf s rounds)
    (hr : RoundsGive s.floor (fun d => parkedAtTick s.floor (s.cam d))
      (fun d x => inWaitingSet (s.cam x) = true ∧ ¬(x < d ∧ WaitEnds (s.cam x))) [] s.floor.cells rounds h) :
    RoundsOf s (fun x => servedCamera (s.cam x)) (fun d => EndsAtTick (s.cam d)) (fun x => ¬WaitEnds (s.cam x))
      (fun d => parkedAtTick s.floor (s.cam d)) (fun d x => inWaitingSet (s.cam x) = true ∧ ¬(x < d ∧ WaitEnds (s.cam x))) allCams [] rounds
      s.floor.cells h where
  cams d _ := hc d
  among r _ := List.mem_finRange r.cam
  ordered := ho
  sets d x hd := by
    rw [inWaitingSet_servedCamera]
    have hne : inWaitingSet (s.cam x) = true → x ≠ d := fun hw he => by
      have hst := inWaitingSet_state hw
      rw [he] at hst
      rcases hd.2 with ⟨h | h, -⟩ | ⟨⟨h, -⟩, -⟩ <;> rw [h] at hst <;> cases hst
    constructor
    · rintro ⟨hw, hno⟩
      refine ⟨hw, hne hw, or_iff_not_imp_right.mpr fun hends => ?_⟩
      exact lt_of_le_of_ne (not_lt.mp fun hlt => hno ⟨hlt, not_not.mp hends⟩) (hne hw).symm
    · rintro ⟨hw, -, hor⟩
      refine ⟨hw, fun ⟨hlt, hends⟩ => ?_⟩
      rcases hor with hgt | hstay
      · exact lt_asymm hlt hgt
      · exact hstay hends
  cues r hr e he := by
    obtain ⟨rate, p, q, sp, m, hm⟩ := serviceCamera_countWait (s.cam e.cam)
    have hcues := ht r hr e he
    rw [servedCamera, hm]
    exact hcues
  give := hr

theorem tick_examined (hc : ∀ d, EndsAtTick (s.cam d) ↔ ∃ r ∈ rounds, r.cam = d) (ho : rounds.Pairwise (·.cam < ·.cam))
    (hg : ∀ d, EndsAtTick (s.cam d) ∨ WaitEnds (s.cam d) → GotoNext (s.cam d)) (ht : TriesOf s rounds)
    (hr : RoundsGive s.floor (fun d => parkedAtTick s.floor (s.cam d))
      (fun d x => inWaitingSet (s.cam x) = true ∧ ¬(x < d ∧ WaitEnds (s.cam x))) [] s.floor.cells rounds h) :
    ExaminedAtTick s (tickTurned s) rounds h := by
  obtain ⟨hturn, hcells⟩ := allTurns_leave (w := tickMoved s) (tick_law hg) tickMoved_cam rfl (tick_rounds hc ho ht hr)
  have hbase : ∀ x, inWaitingSet (servedCamera (s.cam x)) = true → servedCamera (s.cam x) = waitCounted (s.cam x) := fun x hx =>
    servedCamera_set (by rwa [inWaitingSet_servedCamera] at hx)
  refine ⟨hcells, fun r hr e he hout => ?_, fun x hset hd => ?_⟩
  · have hin := hturn.tried r hr e he
    obtain ⟨k, hleft, hown⟩ := hturn.past e.cam List.not_mem_nil hin
    have hk := hleft.tried r hr e he rfl hout
    rw [hbase e.cam hin] at hk
    rw [tickTurned, hown.1 (by rw [hk]; exact (cameraTried_afterTry hout).unexpired), hk]
  · have hin : inWaitingSet (servedCamera (s.cam x)) = true := by rw [inWaitingSet_servedCamera]; exact hset
    obtain ⟨k, hleft, hown⟩ := hturn.past x List.not_mem_nil hin
    have hk := hleft.denied hd
    rw [hbase x hin] at hk
    rw [hk] at hown
    refine ⟨fun hw => ?_, fun q hw hq => ?_⟩
    · rw [tickTurned, hown.1 (by rw [Bool.eq_false_iff, ne_eq, waitExpired_counted hset]; exact hw)]
    · rw [tickTurned, (hown.2 ((waitExpired_counted hset).mpr hw)).2 q hq]
      rfl

/-! The write-outs (R133) -/

theorem tickTurned_keeps (s : State) : TurnKeeps (tickMoved s) (tickTurned s) := foldl_keeps (tickStep_keeps s) ..

/-- A tick takes no camera into or out of service. -/
theorem tickTurned_enabled (s : State) (c : Cam) : enabledState ((tickTurned s).cam c).state = enabledState (s.cam c).state := by
  obtain ⟨rate, p, q, sp, m, hm⟩ := serviceCamera_countWait (s.cam c)
  have hstate : ((tickMoved s).cam c).state = (s.cam c).state := by rw [tickMoved_cam, servedCamera, hm]
  cases he : enabledState (s.cam c).state with
  | true => exact (tickTurned_keeps s).enabled c (by rw [hstate]; exact he)
  | false =>
    have hnot : ¬((s.cam c).state = .moving ∨ (s.cam c).state = .halting) := by
      rintro (h | h) <;> rw [h] at he <;> cases he
    have hset : inWaitingSet (s.cam c) = false := inWaitingSet_of_state fun h => by rw [h] at he; cases he
    rw [(tick_served hset).still (fun h => hnot h.1) (fun h => hnot (.inr h.1)), movedAtTick_stays hnot (fun h => by rw [h] at he; cases he)]
    exact he

theorem tick_written (hs : s.setp.writeOuts = []) :
    (formWriteOuts (tickTurned s)).setp.pointer = s.setp.pointer + 1 ∧
      (formWriteOuts (tickTurned s)).setp.writeOuts.map writeOutPlan =
        (((List.finRange 8).map fun i => s.setp.pointer + i).filter fun c => enabledState (s.cam c).state).map fun c =>
          (c, otherBank (s.cam c).activeBank, s.timer.frame,
            positionsOf fun a => if inMask (s.cam c).cfg.mask a then ((tickTurned s).cam c).setpoints[a] else 0) := by
  have hkeep := tickTurned_keeps s
  have hsetp : (tickTurned s).setp = s.setp := hkeep.setp
  have htimer : (tickTurned s).timer = s.timer := hkeep.timer
  have hcfg : ∀ c, ((tickTurned s).cam c).cfg = (s.cam c).cfg ∧ ((tickTurned s).cam c).activeBank = (s.cam c).activeBank := fun c => by
    obtain ⟨rate, p, q, sp, m, hm⟩ := serviceCamera_countWait (s.cam c)
    rw [hkeep.cfg, hkeep.bank, tickMoved_cam, servedCamera, hm]
    exact ⟨rfl, rfl⟩
  unfold formWriteOuts
  dsimp only
  rw [hsetp, htimer, hs, List.nil_append, List.map_map]
  refine ⟨rfl, ?_⟩
  simp only [tickTurned_enabled, rotation]
  refine List.map_congr_left fun c _ => ?_
  simp only [Function.comp, writeOutPlan, frameValues, hcfg c]

end Sys2Proof.Machine

/-! A tick as the statements tell it (R127 to R129, R133, R170). -/

namespace Sys2Proof.Machine

variable {s t u v w : State} {c d x : Cam} {q : Cue} {k k' : Camera} {n : Nat}

/-! The status interval's count (R170) -/

/-- t is u but for what the Status Writer makes of a counted tick (R170). -/
structure IntervalCounted (u t : State) : Prop where
  same : Settled { u with stat := { u.stat with count := t.stat.count } } t
  inside : Inside u t
  port : t.port = u.port
  counted : u.stat.count + 1 < u.stat.interval → t.stat.count = u.stat.count + 1
  reached : u.stat.interval ≤ u.stat.count + 1 →
    t.stat.count = 0 ∧ t.stat.syncDue = true ∧
      ∀ c : Cam, (u.cam c).state = .moving ∨ (u.cam c).state = .halting ∨ (u.cam c).state = .direct → t.stat.recordDue[c] = true

theorem countInterval_counts (u : State) : IntervalCounted u (countInterval u) := by
  unfold countInterval
  split
  · next h =>
    refine ⟨{ Settled.refl u with count := rfl }, ⟨rfl, rfl, rfl, rfl, rfl, rfl, rfl, rfl⟩, rfl, fun hlt => absurd h (not_le.mpr hlt), fun _ =>
      ⟨rfl, rfl, fun c hc => ?_⟩⟩
    have hstate : intervalState (u.cam c).state = true := by rcases hc with hc | hc | hc <;> rw [hc] <;> rfl
    simp [reachInterval, State.modStat, hstate]
  · next h => exact ⟨{ Settled.refl u with count := rfl }, ⟨rfl, rfl, rfl, rfl, rfl, rfl, rfl, rfl⟩, rfl, fun _ => rfl, fun hle => absurd hle h⟩

/-! A missed tick (R129) -/

/-- The turn of a camera at a missed tick: one of the set of waiting cameras may end its wait. -/
def missedTurn (s w : State) (c : Cam) : State := if inWaitingSet (s.cam c) then expireWait c w else w

/-- The part after the turns of a missed tick. -/
def missedTurned (s : State) : State := allCams.foldl (missedTurn s) { s with cams := Vector.ofFn fun c => countWait (s.cam c) }

theorem missedTick_eq (s : State) :
    missedTick s = countInterval (((missedTurned s).setMissed (Nat.min 255 (s.timer.missed + 1))).flag flagFrameMissed) := rfl

theorem missedTurn_cases (s w : State) (c : Cam) : missedTurn s w c = expireWait c w ∨ missedTurn s w c = w := ite_eq_or_eq ..

theorem missedTurn_touches (s w : State) (c : Cam) : Touches c w (missedTurn s w c) := by
  rcases missedTurn_cases s w c with h | h <;> rw [h]
  · exact expireWait_touches c w
  · exact .refl c w

theorem missedTurn_keeps (s w : State) (c : Cam) : TurnKeeps w (missedTurn s w c) := by
  rcases missedTurn_cases s w c with h | h <;> rw [h]
  · exact expireWait_keeps c w
  · exact .refl w

theorem missedTurn_raises (s w : State) (c : Cam) : Raises w (missedTurn s w c) := by
  rcases missedTurn_cases s w c with h | h <;> rw [h]
  · exact expireWait_raises c w
  · exact .refl w

theorem missedTurned_cam (s : State) (c : Cam) :
    (inWaitingSet (s.cam c) = false → (missedTurned s).cam c = s.cam c) ∧
      (inWaitingSet (s.cam c) = true → CountedAtTick s (missedTurned s) c) := by
  obtain ⟨w, hcam, hturn⟩ := allCams_alone (f := missedTurn s) { s with cams := Vector.ofFn fun c => countWait (s.cam c) } c
    fun e w _ => missedTurn_touches s w e
  rw [cam_ofFn] at hcam
  refine ⟨fun hset => ?_, fun hset => ?_⟩
  · rw [missedTurned, hturn, missedTurn, if_neg (by rw [hset]; nofun), hcam, countWait_out hset]
  · refine WaitTaken.counted (t := missedTurned s) ?_
    rw [missedTurned, hturn, missedTurn, if_pos hset]
    exact expireWait_taken hset (by rw [hcam, countWait_set hset])

theorem missedTurned_keeps (s : State) : TurnKeeps { s with cams := Vector.ofFn fun c => countWait (s.cam c) } (missedTurned s) :=
  foldl_keeps (missedTurn_keeps s) ..

/-! A tick (R127) -/

/-- The part as a tick begins: the frame counter has risen (R127). -/
def tickBegun (n : Nat) (s : State) : State := s.modTimer fun m => { m with frame := m.frame + 1, lastTick := n }

theorem tick_serviced (hs : s.setp.writeOuts = []) (n : Nat) : tick n s = servicedTick (tickBegun n s) := if_pos hs

theorem tick_missed (hs : s.setp.writeOuts ≠ []) (n : Nat) : tick n s = missedTick (tickBegun n s) := if_neg hs

/-- What the count of a tick is, told by what the turns keep. -/
theorem IntervalCounted.told (h : IntervalCounted u t) (hc : u.stat.count = s.stat.count) (hi : u.stat.interval = s.stat.interval) :
    (s.stat.count + 1 < s.stat.interval → t.stat.count = s.stat.count + 1) ∧
      (s.stat.interval ≤ s.stat.count + 1 →
        t.stat.count = 0 ∧
          (s.port.cur.isSome = true → t.stat.syncDue = true ∧
            ∀ c : Cam, (t.cam c).state = .moving ∨ (t.cam c).state = .halting ∨ (t.cam c).state = .direct → t.stat.recordDue[c] = true)) := by
  obtain ⟨hsame, -, -, hcounted, hreached⟩ := h
  rw [hc, hi] at hcounted hreached
  refine ⟨hcounted, fun hle => ?_⟩
  obtain ⟨hzero, hsync, hrecord⟩ := hreached hle
  have hcam : ∀ c, t.cam c = u.cam c := hsame.cam
  exact ⟨hzero, fun _ => ⟨hsync, fun c hst => hrecord c (by rw [← hcam]; exact hst)⟩⟩

/-- A serviced tick (R128). -/
theorem servicedTick_ticked (hs : s.setp.writeOuts = []) (n : Nat) : Ticked s (tick n s) := by
  have hkeep := tickTurned_keeps (tickBegun n s)
  have hform := countInterval_counts (formWriteOuts (tickTurned (tickBegun n s)))
  have hcount := IntervalCounted.told (s := s) hform hkeep.count hkeep.interval
  have hwritten := tick_written (s := tickBegun n s) hs
  have hserved := @tick_served (tickBegun n s)
  have hwaits := @tick_waits (tickBegun n s)
  have hexamined := @tick_examined (tickBegun n s)
  rw [tick_serviced hs, servicedTick_eq]
  generalize countInterval (formWriteOuts (tickTurned (tickBegun n s))) = t at hform hcount
  have hsame := hform.same
  have hcam : ∀ c, t.cam c = (tickTurned (tickBegun n s)).cam c := hsame.cam
  have htimer : t.timer = (tickBegun n s).timer := hsame.timer.trans hkeep.timer
  have hfloor : t.floor = (tickTurned (tickBegun n s)).floor := hsame.floor
  have hpointer : t.setp.pointer = (formWriteOuts (tickTurned (tickBegun n s))).setp.pointer := hsame.pointer
  have hwriteOuts : t.setp.writeOuts.map writeOutPlan = (formWriteOuts (tickTurned (tickBegun n s))).setp.writeOuts.map writeOutPlan := hsame.writeOuts
  rw [← hpointer, ← hwriteOuts] at hwritten
  simp only [← hcam] at hwritten
  refine
    { frame := by rw [htimer]; rfl
      missedCount := by rw [if_pos hs, htimer]; rfl
      served := fun _ c hset => ?_
      waits := fun _ hn c hset => ?_
      examined := fun _ rounds g hc ho hg ht hr => ?_
      written := fun _ => hwritten
      missed := fun h => absurd hs h
      counted := hcount.1
      interval := hcount.2 }
  · obtain ⟨h1, h2, h3, h4⟩ := hserved (c := c) hset
    rw [← hcam] at h1 h2 h3 h4
    exact ⟨h1, h2, h3, h4⟩
  · obtain ⟨h1, h2⟩ := hwaits (c := c) hn hset
    rw [← hcam] at h1 h2
    exact ⟨h1, h2⟩
  · obtain ⟨h1, h2, h3⟩ := hexamined hc ho hg ht hr
    simp only [← hcam, ← hfloor] at h1 h2 h3
    exact ⟨h1, h2, h3⟩

/-- A missed tick (R129). -/
theorem missedTick_ticked (hs : s.setp.writeOuts ≠ []) (n : Nat) : Ticked s (tick n s) := by
  have hkeep := missedTurned_keeps (tickBegun n s)
  have hcams := missedTurned_cam (tickBegun n s)
  rw [tick_missed hs, missedTick_eq]
  generalize missedTurned (tickBegun n s) = u at hkeep hcams
  have hform := countInterval_counts ((u.setMissed (Nat.min 255 ((tickBegun n s).timer.missed + 1))).flag flagFrameMissed)
  have hcount := IntervalCounted.told (s := s) hform hkeep.count hkeep.interval
  generalize countInterval ((u.setMissed (Nat.min 255 ((tickBegun n s).timer.missed + 1))).flag flagFrameMissed) = t at hform hcount
  have hsame := hform.same
  have hcam : ∀ c, t.cam c = u.cam c := hsame.cam
  have hturned : u.timer = (tickBegun n s).timer := hkeep.timer
  have hframe : t.timer.frame = u.timer.frame := by rw [hsame.timer]; rfl
  have hsetp : u.setp = s.setp := hkeep.setp
  refine
    { frame := by rw [hframe, hturned]; rfl
      missedCount := by rw [if_neg hs, hsame.timer]; rfl
      served := fun h => absurd h hs
      waits := fun h => absurd h hs
      examined := fun h => absurd h hs
      written := fun h => absurd h hs
      missed := fun _ => ⟨?_, hsame.pointer.trans (congrArg SetpointWriter.pointer hsetp),
        hsame.writeOuts.trans (congrArg (fun p : SetpointWriter => p.writeOuts.map writeOutPlan) hsetp), fun c hset => ?_, fun c hset => ?_⟩
      counted := hcount.1
      interval := hcount.2 }
  · have hflags : t.stat.flags = u.stat.flags ||| flagFrameMissed := hsame.flags
    rw [hflags]
    refine and_eq_of_bits fun i hi => ?_
    rw [BitVec.getLsbD_or, hi, Bool.or_true]
  · rw [hcam]
    exact (hcams c).1 hset
  · obtain ⟨h1, h2⟩ := (hcams c).2 hset
    rw [← hcam] at h1 h2
    exact ⟨h1, h2⟩

theorem tick_ticked (n : Nat) (s : State) : Ticked s (tick n s) := by
  by_cases hs : s.setp.writeOuts = []
  · exact servicedTick_ticked hs n
  · exact missedTick_ticked hs n

end Sys2Proof.Machine

/-! The events that bring a tick (R122 to R125, R127). -/

namespace Sys2Proof.Machine

variable {s t u v w : State} {c d x : Cam} {n now due : Nat} {falling : Bool}

/-! What a tick leaves alone -/

theorem tick_inside (n : Nat) (s : State) : Inside s (tick n s) := by
  by_cases hs : s.setp.writeOuts = []
  · rw [tick_serviced hs, servicedTick_eq]
    refine Inside.trans ?_ (countInterval_counts _).inside
    have hin := foldl_inside (tickStep_inside (tickBegun n s)) allCams (tickMoved (tickBegun n s))
    exact ⟨hin.mem, hin.bus, hin.startup, hin.base, hin.pins, hin.fences, hin.lines, hin.host⟩
  · rw [tick_missed hs, missedTick_eq]
    refine Inside.trans ?_ (countInterval_counts _).inside
    have hin : Inside { tickBegun n s with cams := Vector.ofFn fun c => countWait ((tickBegun n s).cam c) } (missedTurned (tickBegun n s)) :=
      foldl_inside (fun w c => (missedTurn_touches (tickBegun n s) w c).inside) ..
    generalize missedTurned (tickBegun n s) = u at hin
    exact ⟨hin.mem, hin.bus, hin.startup, hin.base, hin.pins, hin.fences, hin.lines, hin.host⟩

theorem IntervalCounted.flags (h : IntervalCounted u t) : t.stat.flags = u.stat.flags := h.same.flags

/-- A flag that stands before a tick stands after it. -/
theorem tick_flags (n : Nat) (s : State) {i : Nat} (hi : s.stat.flags.getLsbD i = true) : (tick n s).stat.flags.getLsbD i = true := by
  by_cases hs : s.setp.writeOuts = []
  · rw [tick_serviced hs, servicedTick_eq, (countInterval_counts _).flags]
    exact (foldl_raises (tickStep_raises (tickBegun n s)) allCams (tickMoved (tickBegun n s))).flags i hi
  · rw [tick_missed hs, missedTick_eq, (countInterval_counts _).flags]
    have hraise := foldl_raises (missedTurn_raises (tickBegun n s)) allCams
      { tickBegun n s with cams := Vector.ofFn fun c => countWait ((tickBegun n s).cam c) }
    exact (flag_raises flagFrameMissed ((missedTurned (tickBegun n s)).setMissed _)).flags i (hraise.flags i hi)

theorem tick_port (n : Nat) (s : State) : (tick n s).port = s.port := by
  by_cases hs : s.setp.writeOuts = []
  · rw [tick_serviced hs, servicedTick_eq, (countInterval_counts _).port]
    exact (tickTurned_keeps (tickBegun n s)).port
  · rw [tick_missed hs, missedTick_eq, (countInterval_counts _).port]
    exact (missedTurned_keeps (tickBegun n s)).port

/-- The Frame Timer after a tick (R127). -/
theorem tick_timer (n : Nat) (s : State) :
    (tick n s).timer = { s.timer with frame := s.timer.frame + 1, lastTick := n, missed := (tick n s).timer.missed } := by
  by_cases hs : s.setp.writeOuts = []
  · have htimer : (tick n s).timer = (tickBegun n s).timer := by
      rw [tick_serviced hs, servicedTick_eq, (countInterval_counts _).same.timer]
      exact (tickTurned_keeps (tickBegun n s)).timer
    rw [htimer]
    rfl
  · have htimer : (tick n s).timer = { (missedTurned (tickBegun n s)).timer with missed := Nat.min 255 ((tickBegun n s).timer.missed + 1) } := by
      rw [tick_missed hs, missedTick_eq, (countInterval_counts _).same.timer]
      rfl
    have hturned : (missedTurned (tickBegun n s)).timer = (tickBegun n s).timer := (missedTurned_keeps (tickBegun n s)).timer
    rw [htimer, hturned]
    rfl

/-! A tick within its event -/

/-- A tick after a change of the timer and of the Status Writer that leaves the frame counter, the missed count and the interval's count. -/
theorem Ticked.earlier {m : FrameTimer} {x : StatusWriter} (h : Ticked { s with timer := m, stat := x } t) (hf : m.frame = s.timer.frame)
    (hm : m.missed = s.timer.missed) (hc : x.count = s.stat.count) (hi : x.interval = s.stat.interval) : Ticked s t := by
  obtain ⟨hframe, hmissed, hserved, hwaits, hexamined, hwritten, hmiss, hcounted, hinterval⟩ := h
  dsimp only at hframe hmissed hwritten hcounted hinterval
  rw [hf] at hframe hwritten
  rw [hm] at hmissed
  rw [hc, hi] at hcounted hinterval
  exact
    { frame := hframe, missedCount := hmissed
      served := fun hs c hset =>
        have h := hserved hs c hset
        ⟨h.still, h.completes, h.halts, h.abandons⟩
      waits := fun hs hn c hset =>
        have h := hwaits hs hn c hset
        ⟨h.counts, h.expires⟩
      examined := fun hs rounds g hc ho hg ht hr =>
        have h := hexamined hs rounds g hc ho hg ht hr
        ⟨h.cells, h.tried, h.denied⟩
      written := hwritten
      missed := fun hs =>
        have ⟨h1, h2, h3, h4, h5⟩ := hmiss hs
        ⟨h1, h2, h3, h4, fun c hset => have h := h5 c hset; ⟨h.counts, h.expires⟩⟩
      counted := hcounted, interval := hinterval }

/-- The end of the event leaves what a tick has done. -/
theorem Ticked.settled (h : Ticked s v) (hw : HostWaits v) (hp : v.port = s.port) (old : State) : Ticked s (settle old v) := by
  have hset := settle_settled hw (.refl v) old
  have hdue : ∀ i, s.port.cur.isSome = true → itemDue i v.stat = true → itemDue i (settle old v).stat = true := fun i hheld hd =>
    settle_held_due hw (by rw [hp]; exact hheld) hd old
  generalize settle old v = t at hset hdue
  have hcam : ∀ c, t.cam c = v.cam c := hset.cam
  obtain ⟨hframe, hmissed, hserved, hwaits, hexamined, hwritten, hmiss, hcounted, hinterval⟩ := h
  rw [← hset.timer] at hframe hmissed
  rw [← hset.count] at hcounted hinterval
  rw [← hset.pointer, ← hset.writeOuts] at hwritten hmiss
  rw [← hset.flags] at hmiss
  simp only [← hcam] at hwritten hmiss hinterval
  refine
    { frame := hframe, missedCount := hmissed
      served := fun hs c hout => ?_
      waits := fun hs hn c hin => ?_
      examined := fun hs rounds g hc ho hg ht hr => ?_
      written := hwritten
      missed := fun hs => ?_
      counted := hcounted
      interval := fun hle => ?_ }
  · obtain ⟨h1, h2, h3, h4⟩ := hserved hs c hout
    rw [← hcam] at h1 h2 h3 h4
    exact ⟨h1, h2, h3, h4⟩
  · obtain ⟨h1, h2⟩ := hwaits hs hn c hin
    rw [← hcam] at h1 h2
    exact ⟨h1, h2⟩
  · obtain ⟨h1, h2, h3⟩ := hexamined hs rounds g hc ho hg ht hr
    simp only [← hcam, ← hset.floor] at h1 h2 h3
    exact ⟨h1, h2, h3⟩
  · obtain ⟨h1, h2, h3, h4, h5⟩ := hmiss hs
    refine ⟨h1, h2, h3, h4, fun c hin => ?_⟩
    obtain ⟨h6, h7⟩ := h5 c hin
    rw [← hcam] at h6 h7
    exact ⟨h6, h7⟩
  · obtain ⟨hzero, hheld⟩ := hinterval hle
    refine ⟨hzero, fun hp => ?_⟩
    obtain ⟨hsync, hrecord⟩ := hheld hp
    exact ⟨hdue .syncGroup hp hsync, fun c hst => hdue (.record c) hp (hrecord c hst)⟩

end Sys2Proof.Machine

/-! The interval timer's expiry, and the edges of REF (R121 to R125). -/

namespace Sys2Proof.Machine

variable {s t u v w : State} {c d x : Cam} {n now due : Nat} {falling : Bool} {m : FrameTimer} {z : StatusWriter}

/-! An event that brings a tick -/

/-- What an event leaves that changes the timer and the Status Writer to m and z, and then ticks at time n. -/
structure TicksAt (s : State) (m : FrameTimer) (z : StatusWriter) (n : Nat) (t : State) : Prop where
  memory : SameMemory s t
  ticked : Ticked s t
  timer : t.timer = { m with frame := m.frame + 1, lastTick := n, missed := t.timer.missed }
  flags : ∀ b : BitVec 12, (∀ i, b.getLsbD i = true → z.flags.getLsbD i = true) → t.stat.flags &&& b = b

theorem settle_ticksAt (hw : HostWaits s) (hf : m.frame = s.timer.frame) (hm : m.missed = s.timer.missed) (hc : z.count = s.stat.count)
    (hi : z.interval = s.stat.interval) (n : Nat) : TicksAt s m z n (settle s (tick n { s with timer := m, stat := z })) := by
  have hin := tick_inside n { s with timer := m, stat := z }
  have hwaits : HostWaits (tick n { s with timer := m, stat := z }) := hin.waits hw
  have hset := settle_settled hwaits (.refl _) s
  refine ⟨settle_same hwaits hin.mem s, ((tick_ticked n _).earlier hf hm hc hi).settled hwaits (tick_port n _) s, ?_, fun b hb => ?_⟩
  · rw [hset.timer]
    exact tick_timer n _
  · rw [hset.flags]
    exact and_eq_of_bits fun i hb' => tick_flags n _ (hb i hb')

/-! Ticks that end nothing -/

theorem foldl_fixed {f : State → Cam → State} {w : State} : ∀ l : List Cam, (∀ e ∈ l, f w e = w) → l.foldl f w = w
  | [], _ => rfl
  | e :: l, h => by
    rw [List.foldl_cons, h e List.mem_cons_self]
    exact foldl_fixed l fun e' he' => h e' (List.mem_cons_of_mem e he')

/-- A serviced tick that ends no move, brings none to rest and finds no camera waiting for floor moves the cameras alone. -/
theorem tick_moves (hs : s.setp.writeOuts = []) (hn : ∀ c, inWaitingSet (s.cam c) = false)
    (hq : ∀ c, ¬CompletesAtTick (s.cam c) ∧ ¬RestsAtTick (s.cam c)) (n : Nat) :
    Settled
      { s with
        timer := (tick n s).timer, cams := Vector.ofFn fun c => movedAtTick (s.cam c)
        setp := { s.setp with writeOuts := (tick n s).setp.writeOuts, pointer := s.setp.pointer + 1 }
        stat := { s.stat with count := (tick n s).stat.count } } (tick n s) := by
  have hturned : tickTurned (tickBegun n s) = tickMoved (tickBegun n s) := foldl_fixed _ fun c _ =>
    tickStep_goes (hn c) (hq c).1 (hq c).2 (by rw [tickMoved_cam]; exact servedCamera_out (hn c))
  have hcams : (tickMoved (tickBegun n s)).cams = Vector.ofFn fun c => movedAtTick (s.cam c) :=
    congrArg Vector.ofFn (funext fun c => servedCamera_out (hn c))
  rw [tick_serviced hs, servicedTick_eq, hturned]
  have hsame := (countInterval_counts (formWriteOuts (tickMoved (tickBegun n s)))).same
  generalize countInterval (formWriteOuts (tickMoved (tickBegun n s))) = t at hsame
  exact { hsame with timer := rfl, cams := hsame.cams.trans hcams, writeOuts := rfl }

/-- A missed tick that finds no camera waiting for floor changes no camera. -/
theorem tick_misses (hs : s.setp.writeOuts ≠ []) (hn : ∀ c, inWaitingSet (s.cam c) = false) (n : Nat) :
    Settled
      { s with
        timer := (tick n s).timer
        stat := { s.stat with count := (tick n s).stat.count, flags := s.stat.flags ||| flagFrameMissed } } (tick n s) := by
  have hcams : (Vector.ofFn fun c => countWait ((tickBegun n s).cam c)) = s.cams := by
    ext i hi
    rw [Vector.getElem_ofFn]
    exact countWait_out (hn ⟨i, hi⟩)
  have hturned : missedTurned (tickBegun n s) = tickBegun n s := by
    rw [missedTurned, hcams]
    exact foldl_fixed _ fun c _ => if_neg (by rw [show inWaitingSet ((tickBegun n s).cam c) = false from hn c]; nofun)
  rw [tick_missed hs, missedTick_eq, hturned]
  have hsame := (countInterval_counts (((tickBegun n s).setMissed (Nat.min 255 ((tickBegun n s).timer.missed + 1))).flag flagFrameMissed)).same
  generalize countInterval (((tickBegun n s).setMissed (Nat.min 255 ((tickBegun n s).timer.missed + 1))).flag flagFrameMissed) = t at hsame
  exact { hsame with timer := rfl }

/-! The interval timer (R122, R125) -/

/-- The timer whose next expiry comes an interval after this one. -/
def expiryNext (due : Nat) (m : FrameTimer) : FrameTimer := { m with nextExpiry := some (due + m.tint) }

theorem timerExpiry_free (hd : s.timer.nextExpiry = some due) (hl : s.timer.sync ≠ .locked) :
    timerExpiry s = tick due { s with timer := expiryNext due s.timer } := by
  unfold timerExpiry
  simp only [hd]
  exact if_neg hl

/-- The part as the tick begins that loses the reference (R125). -/
def referenceLost (due : Nat) (s : State) : State :=
  (((s.modTimer (expiryNext due)).modTimer fun m => { m with qualify := 0 }).setSync .holdover).flag flagSyncLost

theorem timerExpiry_locked (hd : s.timer.nextExpiry = some due) (hl : s.timer.sync = .locked) : timerExpiry s = tick due (referenceLost due s) := by
  unfold timerExpiry
  simp only [hd]
  exact if_pos hl

theorem referenceLost_eq (due : Nat) (s : State) : ∃ z, referenceLost due s =
      { s with timer := { s.timer with nextExpiry := some (due + s.timer.tint), qualify := 0, sync := .holdover }, stat := z } ∧
    z.count = s.stat.count ∧ z.interval = s.stat.interval ∧ z.flags = s.stat.flags ||| flagSyncLost := ⟨_, rfl, rfl, rfl, rfl⟩

theorem flags_or (a b : BitVec 12) (i : Nat) (hi : b.getLsbD i = true) : (a ||| b).getLsbD i = true := by
  rw [BitVec.getLsbD_or, hi, Bool.or_true]

/-- Settles O44: the expiry is a tick in every sync state; in LOCKED the reference is lost. -/
theorem timerExpiryIsATick : Obligations.TimerExpiryIsATick := by
  intro s due hrun hw hd
  have hexec : exec .intervalTimerExpiry s = .next (settle s (timerExpiry s)) := if_pos ⟨hrun, by rw [hd]; rfl⟩
  refine ⟨_, hexec, ?_⟩
  by_cases hl : s.timer.sync = .locked
  · obtain ⟨z, hz, hc, hi, hf⟩ := referenceLost_eq due s
    rw [timerExpiry_locked hd hl, hz]
    have ht := settle_ticksAt hw (m := { s.timer with nextExpiry := some (due + s.timer.tint), qualify := 0, sync := .holdover }) (z := z) rfl rfl hc hi
      due
    refine ⟨ht.memory, ht.ticked, fun h => absurd hl h, fun _ => ⟨ht.flags _ fun i hb => ?_, ht.timer⟩, fun h => absurd hl h⟩
    rw [hf]
    exact flags_or _ _ i hb
  · rw [timerExpiry_free hd hl]
    have ht := settle_ticksAt hw (m := expiryNext due s.timer) (z := s.stat) rfl rfl rfl rfl due
    have hwaits : HostWaits (tick due { s with timer := expiryNext due s.timer }) := (tick_inside due _).waits hw
    refine ⟨ht.memory, ht.ticked, fun _ => ht.timer, fun h => absurd h hl, fun _ hn => ⟨fun hs hq => ?_, fun hs => ?_⟩⟩
    · have hset := settle_settled hwaits (tick_moves (s := { s with timer := expiryNext due s.timer }) hs hn hq due) s
      exact { hset with timer := rfl, writeOuts := rfl, count := rfl }
    · have hset := settle_settled hwaits (tick_misses (s := { s with timer := expiryNext due s.timer }) hs hn due) s
      exact { hset with timer := rfl, count := rfl }

end Sys2Proof.Machine

/-! The edges of REF (R121, R123, R124). -/

namespace Sys2Proof.Machine

variable {s t u v w : State} {n now q : Nat} {falling : Bool} {m : FrameTimer} {z : StatusWriter}

/-! Judging an interval (R123) -/

/-- The qualify count after a divided REF point that is judged (R123). -/
def qualified (m : FrameTimer) (now : Nat) : Nat := if goodInterval m now then Nat.min 8 (m.qualify + 1) else 0

theorem goodInterval_iff : goodInterval m now = true ↔
    ∃ p, m.lastPoint = some p ∧ p ≤ now ∧ m.tint - m.tint / 8 ≤ now - p ∧ now - p ≤ m.tint + m.tint / 8 := by
  unfold goodInterval
  cases m.lastPoint with
  | none => simp
  | some p => simp

/-- The timer with a judged point. -/
def judgedAt (now : Nat) (m : FrameTimer) : FrameTimer := { m with qualify := qualified m now, lastPoint := some now }

/-- The timer with a judged point from which the loss time runs (R123). -/
def restartedAt (now : Nat) (m : FrameTimer) : FrameTimer := { judgedAt now m with nextExpiry := some (now + lossTime m) }

theorem judgePoint_counts (h : qualified s.timer now ≠ 8) : judgePoint now s = { s with timer := judgedAt now s.timer } := if_neg h

theorem judgePoint_guards (h : qualified s.timer now = 8) (hg : now - s.timer.lastTick < s.timer.tint / 2) :
    judgePoint now s = { s with timer := restartedAt now s.timer } := (if_pos h).trans (if_neg (not_le.mpr hg))

/-- The part as the tick begins that locks (R123). -/
def lockedAt (now : Nat) (s : State) : State :=
  if s.timer.sync = .holdover then (({ s with timer := restartedAt now s.timer } : State).setSync .locked).flag flagSyncRegained
  else ({ s with timer := restartedAt now s.timer } : State).setSync .locked

theorem judgePoint_locks (h : qualified s.timer now = 8) (hg : s.timer.tint / 2 ≤ now - s.timer.lastTick) :
    judgePoint now s = tick now (lockedAt now s) := (if_pos h).trans (if_pos hg)

theorem lockedAt_eq (now : Nat) (s : State) : ∃ z,
    lockedAt now s = { s with timer := { restartedAt now s.timer with sync := .locked }, stat := z } ∧ z.count = s.stat.count ∧
      z.interval = s.stat.interval ∧ (s.timer.sync = .holdover → z.flags = s.stat.flags ||| flagSyncRegained) := by
  unfold lockedAt
  split
  · exact ⟨_, rfl, rfl, rfl, fun _ => rfl⟩
  · next h => exact ⟨_, rfl, rfl, rfl, fun hh => absurd hh h⟩

theorem lockedAt_inside (now : Nat) (s : State) : Inside s (lockedAt now s) := by
  obtain ⟨z, hz, -⟩ := lockedAt_eq now s
  rw [hz]
  exact ⟨rfl, rfl, rfl, rfl, rfl, rfl, rfl, rfl⟩

theorem timer_inside (m : FrameTimer) (s : State) : Inside s { s with timer := m } := ⟨rfl, rfl, rfl, rfl, rfl, rfl, rfl, rfl⟩

theorem judgePoint_inside (now : Nat) (s : State) : Inside s (judgePoint now s) := by
  by_cases h : qualified s.timer now = 8
  · by_cases hg : s.timer.tint / 2 ≤ now - s.timer.lastTick
    · rw [judgePoint_locks h hg]
      exact (lockedAt_inside now s).trans (tick_inside now _)
    · rw [judgePoint_guards h (not_le.mp hg)]
      exact timer_inside ..
  · rw [judgePoint_counts h]
    exact timer_inside ..

/-! A divided REF point (R121, R124) -/

/-- The part as the tick begins that a point brings in LOCKED (R124). -/
def pointLocked (now : Nat) (m : FrameTimer) : FrameTimer := { m with lastPoint := some now, nextExpiry := some (now + lossTime m) }

theorem refPoint_locked (h : s.timer.sync = .locked) : refPoint now s = tick now { s with timer := pointLocked now s.timer } := by
  unfold refPoint
  simp only [h]
  rfl

theorem refPoint_judged (h : s.timer.sync = .seeking ∨ s.timer.sync = .holdover) : refPoint now s = judgePoint now s := by
  unfold refPoint
  rcases h with h | h <;> simp only [h]

theorem refPoint_inside (now : Nat) (s : State) : Inside s (refPoint now s) := by
  cases h : s.timer.sync with
  | locked => rw [refPoint_locked h]; exact (timer_inside _ s).trans (tick_inside now _)
  | seeking => rw [refPoint_judged (.inl h)]; exact judgePoint_inside ..
  | holdover => rw [refPoint_judged (.inr h)]; exact judgePoint_inside ..
  | free =>
    unfold refPoint
    simp only [h]
    exact timer_inside ..

/-- The timer whose divider count is 0 again. -/
def undivided (m : FrameTimer) : FrameTimer := { m with divCount := 0 }

theorem takeRefEdge_ignored (h : s.timer.mode = .internal ∨ falling ≠ s.timer.falling) : takeRefEdge falling now s = s :=
  if_neg fun ⟨hm, hf⟩ => h.elim (fun h => by rw [h] at hm; cases hm) fun h => h hf

theorem takeRefEdge_counts (hm : s.timer.mode = .house) (hf : falling = s.timer.falling) (hd : s.timer.divCount + 1 < s.timer.divider) :
    takeRefEdge falling now s = { s with timer := { s.timer with divCount := s.timer.divCount + 1 } } :=
  (if_pos ⟨hm, hf⟩).trans (if_neg (not_le.mpr hd))

theorem takeRefEdge_point (hm : s.timer.mode = .house) (hf : falling = s.timer.falling) (hd : s.timer.divider ≤ s.timer.divCount + 1) :
    takeRefEdge falling now s = refPoint now { s with timer := undivided s.timer } := (if_pos ⟨hm, hf⟩).trans (if_pos hd)

theorem takeRefEdge_inside (falling : Bool) (now : Nat) (s : State) : Inside s (takeRefEdge falling now s) := by
  unfold takeRefEdge
  exact inside_ite (inside_ite ((timer_inside (undivided s.timer) s).trans (refPoint_inside now _)) (timer_inside _ s)) (.refl s)

/-- Settles O45: an edge is ignored, counted, or a point; a point in LOCKED ticks, and in SEEKING and HOLDOVER is judged. -/
theorem refEdgeIsJudged : Obligations.RefEdgeIsJudged := by
  intro s falling now hrun hw
  have hexec : exec (.refEdge falling now) s = .next (settle s (takeRefEdge falling now s)) := if_pos hrun
  have hin := takeRefEdge_inside falling now s
  have hset : ∀ {u}, takeRefEdge falling now s = u → Settled u (settle s (takeRefEdge falling now s)) := fun h =>
    settle_settled (hin.waits hw) (h ▸ .refl _) s
  refine ⟨_, hexec, settle_same (hin.waits hw) hin.mem s, fun h => hset (takeRefEdge_ignored h), fun hm hf => ⟨fun hd => hset (takeRefEdge_counts hm hf hd),
    fun hd => ?_⟩⟩
  have hpoint := takeRefEdge_point (now := now) hm hf hd
  refine ⟨fun hs => ?_, fun hs q hq => ?_⟩
  · rw [hpoint, refPoint_locked (s := { s with timer := undivided s.timer }) hs]
    have ht := settle_ticksAt hw (m := pointLocked now (undivided s.timer)) (z := s.stat) rfl rfl rfl rfl now
    exact ⟨ht.ticked, ht.timer⟩
  · rw [refPoint_judged (s := { s with timer := undivided s.timer }) hs] at hpoint
    have hqual : qualified (undivided s.timer) now = q := by
      rw [hq, qualified]
      exact if_congr goodInterval_iff rfl rfl
    refine ⟨fun hne => ?_, fun h8 hg => ?_, fun h8 hg => ?_⟩
    · have h := hset (hpoint.trans (judgePoint_counts (s := { s with timer := undivided s.timer }) (by rw [hqual]; exact hne)))
      rw [judgedAt, hqual] at h
      exact h
    · have h := hset (hpoint.trans (judgePoint_guards (s := { s with timer := undivided s.timer }) (hqual.trans h8) hg))
      rw [restartedAt, judgedAt, hqual, h8] at h
      exact h
    · obtain ⟨z, hz, hc, hi, hregain⟩ := lockedAt_eq now { s with timer := undivided s.timer }
      have hlock : takeRefEdge falling now s =
          tick now { s with timer := { restartedAt now (undivided s.timer) with sync := .locked }, stat := z } :=
        (hpoint.trans (judgePoint_locks (s := { s with timer := undivided s.timer }) (hqual.trans h8) hg)).trans (congrArg (tick now) hz)
      have ht := settle_ticksAt hw (m := { restartedAt now (undivided s.timer) with sync := .locked }) (z := z) rfl rfl hc hi now
      rw [← hlock] at ht
      generalize settle s (takeRefEdge falling now s) = t at ht
      refine ⟨ht.ticked, ?_, fun hh => ht.flags _ fun i hb => ?_⟩
      · have htimer := ht.timer
        rw [restartedAt, judgedAt, hqual, h8] at htimer
        exact htimer
      · rw [hregain hh]
        exact flags_or _ _ i hb

end Sys2Proof.Machine
